-- ==== Sys2Proof/Word.lean ====
section
/-! DEFINITION. The word types of the N12 (R5, R7): bytes, 32-bit and 64-bit words. -/

namespace Sys2Proof

/-- Eight bits, the smallest addressable unit. -/
abbrev Byte := BitVec 8

/-- A 32-bit word: a general register (R155), a queue position (R275), a counter (R253). -/
abbrev W32 := BitVec 32

/-- A 64-bit word: a wide register (R7), an instruction word (R151), an object reference (R257). -/
abbrev W64 := BitVec 64

/-- Bits h down to l of x as a number. -/
def fld (x : BitVec n) (h l : Nat) : Nat := (x.extractLsb' l (h + 1 - l)).toNat

/-- Bit i of x. -/
def bit (x : BitVec n) (i : Nat) : Bool := x.getLsbD i

end Sys2Proof
end

