-- ==== Sys2Proof/Syntax.lean ====
section
/-! DEFINITION. The commands of the block: one constructor of `Instr` for each row of the table of
operations and events, with the operands that say on which unit, by whom and with what written value
or outside event the step comes about. -/

namespace Sys2Proof

/-- Tiles T0-T95 (spec/00_scope.md, names). -/
abbrev TileId := Fin 96
/-- Compute dies C0-C3 (R14). -/
abbrev DieId := Fin 4
/-- HBM stacks S0-S11 (R14). -/
abbrev StackId := Fin 12
/-- Server cores K0-K47 (R236). -/
abbrev CoreId := Fin 48
/-- Hardware contexts 0-63 (R23). -/
abbrev CtxId := Fin 64
/-- Queues 0-1,023 (R275). -/
abbrev QId := Fin 1024
/-- SerDes quads Q0-Q15 (R310). -/
abbrev QuadId := Fin 16
/-- Receive windows 0-4,095 (R234). -/
abbrev WinId := Fin 4096
/-- Physical synchronisation objects (R256). -/
abbrev ObjId := Fin 16384
/-- PCIe functions in the numbering of CMD_FUNCf_STATE: 0 PF0, 1-32 VFs, 33 PF1 (R298). -/
abbrev FuncId := Fin 34

/-- A byte of host memory (host bus address, value) that the host itself stored before the step: a command that
reads host memory carries those stores, since no row of the table is the host's own store. -/
abbrev HostByte := Nat × Byte

/-- An error that the protection of a tile's memories finds while a step reads them (R388); `bad`: it is uncorrectable. The memories
are the scratchpad (an 8 B word by its number), the register file, the merging buffer (an 8 B word of an entry's 256 B granule), the L1
(a line by its index) and the instruction cache (the 64 B line of a word by its number). -/
inductive Flaw where
  | spad (word : Fin 1048576) (bad : Bool)
  | reg (group : Nat) (lane : Fin 64) (r : BitVec 6) (bad : Bool)
  | merge (granule : Nat) (word : Fin 32) (bad : Bool)
  | l1 (i : Fin 48)
  | icache (w : Nat)
  | cell (a : Fin 2)
deriving DecidableEq, Repr

/-- One issue of a kernel instruction (R131, R132): the issue set `lanes` of group `group` on `tile`, whether the instruction
cache still holds the word at its PC (`hit`), where it was fetched before (R145), the errors that it meets (R388), the instructions, by
group and PC, whose unit cannot accept them in this tile cycle or whose word the instruction cache has given up (`stalled`), and whether
the set issues in the same tile cycle as the one before it (`co`). -/
structure Issue where
  tile  : TileId
  group : Nat
  lanes : W64
  hit   : Bool
  flaws : List Flaw
  stalled : List (Nat × Nat)
  co    : Bool
deriving DecidableEq, Repr

/-- Who makes an access to register space (R7, R193, R393). -/
inductive Origin where
  | pf0
  | pf1
  | vf (n : Fin 32)                       -- VF(n+1)
  | core (k : CoreId) (mMode : Bool)
  | zoilo (z : Fin 8)
  | tile (t : TileId)
  | hub                                  -- the hub's DMA engines
deriving DecidableEq, Repr

/-- The unit in whose name memory is accessed (R393). -/
inductive Requester where
  | func (f : FuncId)
  | tile (t : TileId)
  | core (k : CoreId)
  | zoilo (z : Fin 8)
  | quad (q : QuadId)
  | hub
deriving DecidableEq, Repr

/-- What the code of a memory finds in the data it reads (R205, R208): nothing, a corrected or an uncorrectable error. -/
inductive EccEvent where
  | none
  | corrected
  | uncorrectable
deriving DecidableEq, Repr

/-- The word atomics (R172, R207). -/
inductive AtomOp where
  | add | swap | cas | minS | maxS | minU | maxU
deriving DecidableEq, Repr

/-- The bulk reduction operations (R187, R206). -/
inductive RedOp where
  | add | min | max
deriving DecidableEq, Repr

/-- The bulk reduction formats (R187, R206). -/
inductive RedFmt where
  | fp32 | bf16 | fp16 | int32 | int64
deriving DecidableEq, Repr

/-- Which row of the allocation table of R203 a requester of the near cache is in. -/
inductive NcClass where
  | allocating       -- threads, server cores, host, walks
  | streaming        -- DMA, sequencer, checkpoint engine, node-link transmit
deriving DecidableEq, Repr

/-- A request at its home near cache (R202): a read of `len` bytes, or a write of `data`. -/
structure PoolAccess where
  by_   : Requester
  cls   : NcClass
  pa    : Nat
  write : Bool
  len   : Nat
  data  : List Byte
  ncErr : EccEvent
  hbmErr : EccEvent
deriving DecidableEq, Repr

/-- The kinds of engine access that XLAT_CTXc_FAULT.KIND names (R232). -/
inductive XKind where
  | load | store | atomic | reduction | fetch | dxRead | dxWrite | nodeRx
deriving DecidableEq, Repr

/-- A page-table walk (R224, R228): its requester's tile (none: the hub's streams), context, address and access; `write` is
the direction of a node-link access. -/
structure Walk where
  tile : Option TileId
  ctx  : CtxId
  va   : W64
  kind : XKind
  write : Bool
deriving DecidableEq, Repr

/-- The interrupt files of a server core (R240). -/
inductive ImsicFile where
  | m | s | guest1 | guest2
deriving DecidableEq, Repr

/-- Why host memory becomes unreachable for a function (R305). -/
inductive UnreachCause where
  | busMasterClear | d3hot | failedCompletion
deriving DecidableEq, Repr

/-- What training of a quad found (R313): the lanes that trained and, for NL, what the peer reported. -/
structure QuadTrain where
  lanes : BitVec 4
  peer  : BitVec 20
  peerIncarn : BitVec 16
deriving DecidableEq, Repr

/-- A transport frame as received (R316). `crcOk`: its link CRC or FCS holds (R317); `link`: the link header in front of it on an NL quad;
`icrc`: the trailer behind it;
`ce`: the packet was marked congestion-experienced (R322). -/
structure Frame where
  quad    : QuadId
  crcOk   : Bool
  link    : W64
  typ     : Byte
  ce      : Bool
  cls     : BitVec 2
  poison  : Bool
  ece     : Bool
  src     : BitVec 20
  dst     : BitVec 20
  win     : BitVec 12
  psn     : W32
  arg     : W64
  incarn  : BitVec 16
  redOp   : BitVec 2
  redFmt  : BitVec 3
  arg2    : W32
  payload : List Byte
  icrc    : W32
deriving DecidableEq, Repr

/-- An Ethernet packet as received (R326): its bytes without the FCS. -/
structure Packet where
  bytes : List Byte
deriving DecidableEq, Repr

/-- What the bring-up of a cold, warm or die reset finds: the die-to-die modules, pseudo-channels, arrays and tile self-tests that
fail, and the nonce drawn (R19, R57, R214, R394, R413). -/
structure Bringup where
  d2dFail  : List (DieId × Fin 24)
  pcFail   : List (StackId × Fin 32)
  arrFail  : List (Fin 192)
  spadFail : List TileId
  tgeFail  : List TileId
deriving DecidableEq, Repr

/-- A bring-up in which everything passes. -/
def Bringup.good : Bringup := ⟨[], [], [], [], []⟩

/-- The supply inputs of R344. -/
inductive Supply where
  | aux | io | main
deriving DecidableEq, Repr

/-- What the host does with PERST_N (R427): the level it goes to, and for how many ns it stays there. -/
structure PerstLevel where
  level : Bool
  ns : Nat
deriving DecidableEq, Repr

/-- What the monitors of R359 measure beside the temperatures of the dies: the stacks and the three supply inputs (R348). -/
structure Sensed where
  stackTemps : List (BitVec 8)
  vmain : BitVec 16
  vio : BitVec 16
  vaux : BitVec 12
deriving DecidableEq, Repr

/-- How a supply input rises (R347, R423, R424): whether the one before it in the order has been valid for 10 ms, whether it rose within
its ramp times, whether sideband pins were driven without VIN_AUX, and whether VIN_AUX was off for 1 s. -/
structure SupplyRise where
  gapMet : Bool
  ramp : Bool
  driven : Bool
  off1s : Bool
deriving DecidableEq, Repr

/-- The PLLs of R349. -/
inductive Pll where
  | root (x : Fin 5)
  | hbm (d : DieId)
  | d2d (x : Fin 5)
  | pcie
  | serdes
deriving DecidableEq, Repr

/-- The causes of hub loss (R386). -/
inductive HubLossCause where
  | noHeartbeat (d : DieId) | fabric | pll
deriving DecidableEq, Repr

/-- The traffic figures of a telemetry record's millisecond (R403). -/
structure Traffic where
  hbmMb  : BitVec 16
  nlTx   : BitVec 16
  nlRx   : BitVec 16
  pcieMb : BitVec 16
  slots  : W32
deriving DecidableEq, Repr

/-- The boundary-scan cells of the sideband contacts of JA (R421, R432); an output cell true drives its contact low. -/
structure Cells where
  perst  : Bool := false
  modRst : Bool := false
  therm  : Bool := false
  seqflt : Bool := false
deriving DecidableEq, Repr

/-- A TAP instruction (R412, R432), SAMPLE/PRELOAD with the cells that are shifted in; `trst`: TRST_N goes low (R421). -/
inductive JtagInstr where
  | idcode | bypass | extest | clamp | highz | trst
  | sample (cells : Cells)
  | debug (code : Nat)
deriving DecidableEq, Repr

/-- What the instructions of a server core have done in the core itself before an access of it (R236, R237), which no row of the table
shows: its privilege, the registers that the manual names, reads of the time and of the timers, and what its instruction cache fetches
(`line`: PA / 64). -/
inductive CoreAct where
  | privilege (level : BitVec 2) (virt : Bool)
  | satp (v : W64)
  | vsatp (v : W64)
  | hgatp (v : W64)
  | stimecmp (v : W64)
  | vstimecmp (v : W64)
  | readTime
  | readTimers
  | fetch (line : Nat)
  | fenceI
deriving DecidableEq, Repr

/-- A load of a server core: its physical address and width, what the core did before it, and the error found in a line of its L1 data
cache and in its L1 instruction cache (R388). -/
structure CoreLoad where
  pa    : Nat
  bytes : Nat := 8
  acts  : List CoreAct := []
  l1d   : Option (Nat × EccEvent) := none
  l1i   : Bool := false
deriving DecidableEq, Repr

/-- What a step of the sequencer reads (R333): the host's stores and the error found in its staging (R388). -/
structure StageRead where
  hw  : List HostByte
  err : EccEvent := .none
deriving DecidableEq, Repr

/-- A block of a save read into the staging of the checkpoint engine (R340), with the error found there (R388). -/
structure BlockEnd where
  block : Nat
  err   : EccEvent := .none
deriving DecidableEq, Repr

/-- What befalls a control core (R388, R401): its watchdog expires, or an error in its memory or the security engine's is corrected, or
is uncorrectable, with or without a copy in the firmware reserve. -/
inductive ServiceStop where
  | watchdog
  | corrected
  | uncorrectable (copy : Bool)
deriving DecidableEq, Repr

/-- A control core and what befalls it. -/
structure ServiceEvent where
  core  : Fin 8
  event : ServiceStop := .watchdog
deriving DecidableEq, Repr

/-- A transfer on the SMBus (R416, R430, R431): an MCTP message with the packet error code that it carries, a read or a write of the FRU
EEPROM. -/
inductive SmbXfer where
  | mctp (msg : List Byte) (pec : Option Byte)
  | read (off n : Nat)
  | write (off : Nat) (data : List Byte)
deriving DecidableEq, Repr

/-- How the management endpoint is addressed (R416): over PCIe VDM through PF1, or at a 7-bit address of the SMBus. -/
inductive MgmtIn where
  | vdm (msg : List Byte)
  | smbus (addr : BitVec 7) (x : SmbXfer)
deriving DecidableEq, Repr

/-- The configuration requests that change the block's state (R272, R298, R303, R305, R306). -/
inductive ConfigReq where
  | busMaster (on : Bool)
  | d3hot (on : Bool)
  | vfEnable (num : Fin 33)
  | bar0 (base : W64)
  | bar2 (base : W64)                    -- PF0 only
  | barSize (n : Fin 10)                 -- PF0's BAR2: 2^n GiB
  | vfBar (base : W64)                   -- BAR0 of the VFs, in PF0's SR-IOV capability
  | payload (mps mrrs : BitVec 3)        -- 128 B * 2^code
  | timeout (range : BitVec 4) (off : Bool)
  | aer (mask severity correctable : W32)
  | aerClear (uncorrectable : W32)       -- ones written to the error status
  | ecrc (gen check : Bool)
  | other
deriving DecidableEq, Repr

/-- The commands: every row of spec/opcode_table.json. -/
inductive Instr where
  /-- NOP (R160): Kernel instruction that does nothing and advances the PC by 8. -/
  | nop (i : Issue)
  /-- IADD (R162): Integer add modulo 2^w into g[DST]. -/
  | iadd (i : Issue)
  /-- ISUB (R162): Integer subtract modulo 2^w into g[DST]. -/
  | isub (i : Issue)
  /-- IMUL (R162): Low 32 bits of an integer product into g[DST]. -/
  | imul (i : Issue)
  /-- IMULH (R162): High 32 bits of a signed or unsigned 64-bit product into g[DST]. -/
  | imulh (i : Issue)
  /-- IMAD (R162): Integer multiply-add, optionally with a 64-bit WIDE result pair. -/
  | imad (i : Issue)
  /-- IMIN (R162): Smaller of two integers, signed or unsigned. -/
  | imin (i : Issue)
  /-- IMAX (R162): Larger of two integers, signed or unsigned. -/
  | imax (i : Issue)
  /-- AND (R162): Bitwise AND of two registers. -/
  | andR (i : Issue)
  /-- OR (R162): Bitwise OR of two registers. -/
  | orR (i : Issue)
  /-- XOR (R162): Bitwise XOR of two registers. -/
  | xorR (i : Issue)
  /-- SHL (R162): Shift left by b mod w. -/
  | shl (i : Issue)
  /-- SHR (R162): Arithmetic or logical shift right by b mod w. -/
  | shr (i : Issue)
  /-- POPC (R162): Count of 1 bits of a register. -/
  | popc (i : Issue)
  /-- CLZ (R162): Count of leading zeros, 32 for zero. -/
  | clz (i : Issue)
  /-- BREV (R162): Bit reversal of a register. -/
  | brev (i : Issue)
  /-- IDIV (R163): Integer quotient truncated toward zero, with defined results for b = 0 and overflow. -/
  | idiv (i : Issue)
  /-- IREM (R163): Integer remainder with the sign of a, with defined results for b = 0. -/
  | irem (i : Issue)
  /-- SEL (R162): Selects a or b by predicate p[P]. -/
  | sel (i : Issue)
  /-- MOV (R162): Copies a register or pair. -/
  | mov (i : Issue)
  /-- ISETP (R164): Integer compare, optionally combined with p[P], written to a predicate. -/
  | isetp (i : Issue)
  /-- IADD_I (R162): Immediate form of IADD. -/
  | iaddI (i : Issue)
  /-- ISUB_I (R162): Immediate form of ISUB. -/
  | isubI (i : Issue)
  /-- IMUL_I (R162): Immediate form of IMUL. -/
  | imulI (i : Issue)
  /-- IMIN_I (R162): Immediate form of IMIN. -/
  | iminI (i : Issue)
  /-- IMAX_I (R162): Immediate form of IMAX. -/
  | imaxI (i : Issue)
  /-- AND_I (R162): Immediate form of AND. -/
  | andI (i : Issue)
  /-- OR_I (R162): Immediate form of OR. -/
  | orI (i : Issue)
  /-- XOR_I (R162): Immediate form of XOR. -/
  | xorI (i : Issue)
  /-- SHL_I (R162): Immediate form of SHL. -/
  | shlI (i : Issue)
  /-- SHR_I (R162): Immediate form of SHR. -/
  | shrI (i : Issue)
  /-- MOV_I (R162): Writes IMM32 to g[DST]. -/
  | movI (i : Issue)
  /-- ISETP_I (R164): Compare with an immediate, writing the predicate without combining. -/
  | isetpI (i : Issue)
  /-- PLOG (R164): Predicate from a lookup table of three predicates. -/
  | plog (i : Issue)
  /-- P2G (R164): Copies the predicates into a general register. -/
  | p2g (i : Issue)
  /-- G2P (R164): Sets masked predicates from a general register. -/
  | g2p (i : Issue)
  /-- SREG (R157): Copies a special register, or a 64-bit one atomically, into registers. -/
  | sreg (i : Issue)
  /-- FADD (R165): Float add, rounded once. -/
  | fadd (i : Issue)
  /-- FSUB (R165): Float subtract, rounded once. -/
  | fsub (i : Issue)
  /-- FMUL (R165): Float multiply, rounded once. -/
  | fmul (i : Issue)
  /-- FFMA (R165): Float fused multiply-add with one rounding. -/
  | ffma (i : Issue)
  /-- FMIN (R166): Float minimum with NaN and signed-zero rules. -/
  | fmin (i : Issue)
  /-- FMAX (R166): Float maximum with NaN and signed-zero rules. -/
  | fmax (i : Issue)
  /-- FABS (R166): Clears the sign bit, canonicalising NaN. -/
  | fabs (i : Issue)
  /-- FNEG (R166): Flips the sign bit, canonicalising NaN. -/
  | fneg (i : Issue)
  /-- FDIV (R166): Correctly rounded float division. -/
  | fdiv (i : Issue)
  /-- FSQRT (R166): Correctly rounded float square root. -/
  | fsqrt (i : Issue)
  /-- FRCP (R166): fp32 reciprocal within the bounds of R116. -/
  | frcp (i : Issue)
  /-- FRSQRT (R166): fp32 reciprocal square root within the bounds of R116. -/
  | frsqrt (i : Issue)
  /-- FEXP2 (R166): fp32 base-2 exponential within the bounds of R116. -/
  | fexp2 (i : Issue)
  /-- FLOG2 (R166): fp32 base-2 logarithm within the bounds of R116. -/
  | flog2 (i : Issue)
  /-- FSIN (R166): fp32 sine within the bounds of R116. -/
  | fsin (i : Issue)
  /-- FCOS (R166): fp32 cosine within the bounds of R116. -/
  | fcos (i : Issue)
  /-- FSETP (R166): Float compare written to a predicate. -/
  | fsetp (i : Issue)
  /-- CVT (R167): Thread format conversion with one rounding and range limiting. -/
  | cvt (i : Issue)
  /-- LD (R169): Thread load from space G, S or K. -/
  | ld (i : Issue)
  /-- ST (R169): Thread store to space G or S, through the merging buffer for memory. -/
  | st (i : Issue)
  /-- ATOM_ADD (R172): Indivisible fetch-add returning the old value. -/
  | atomAdd (i : Issue)
  /-- ATOM_SWAP (R172): Indivisible swap returning the old value. -/
  | atomSwap (i : Issue)
  /-- ATOM_CAS (R172): Indivisible compare-and-swap returning the old value. -/
  | atomCas (i : Issue)
  /-- ATOM_MIN (R172): Indivisible minimum returning the old value. -/
  | atomMin (i : Issue)
  /-- ATOM_MAX (R172): Indivisible maximum returning the old value. -/
  | atomMax (i : Issue)
  /-- BRA (R174): Relative branch. -/
  | bra (i : Issue)
  /-- BRX (R174): Branch to an offset held in a register. -/
  | brx (i : Issue)
  /-- CALL (R174): Writes the return offset and branches. -/
  | call (i : Issue)
  /-- EXIT (R175): Ends the thread, possibly completing a barrier or group-wide wait. -/
  | exitT (i : Issue)
  /-- TRAP (R175): Aborts the kernel with ST_ABORTED and logs the trap code. -/
  | trap (i : Issue)
  /-- BAR_G (R137): Group barrier; releases all live threads when the last arrives. -/
  | barG (i : Issue)
  /-- BAR_T (R138): Tile barrier among the kernel's groups on a tile. -/
  | barT (i : Issue)
  /-- SIG (R176): Adds a register value to a synchronisation object, releasing at device scope. -/
  | sig (i : Issue)
  /-- SIG_I (R176): Adds an immediate to a synchronisation object. -/
  | sigI (i : Issue)
  /-- WAITS (R177): Blocks a thread until an object's value reaches the target. -/
  | waits (i : Issue)
  /-- FENCE (R147): Orders the thread's accesses at the selected scope. -/
  | fence (i : Issue)
  /-- MX_RUN (R179): Group-wide issue of a matrix operation descriptor to an array queue. -/
  | mxRun (i : Issue)
  /-- VX_RUN (R179): Group-wide issue of a vector operation descriptor to the VE queue. -/
  | vxRun (i : Issue)
  /-- DX_COPY (R188): Group-wide issue of a DMA copy. -/
  | dxCopy (i : Issue)
  /-- DX_FILL (R188): Group-wide issue of a DMA pattern fill. -/
  | dxFill (i : Issue)
  /-- DX_RED (R189): Group-wide issue of a DMA bulk reduction into HBM. -/
  | dxRed (i : Issue)
  /-- KERNEL_START (R130): A kernel starts on a tile once the tile is free, clearing the scratchpad if the context changed. -/
  | kernelStart (t : TileId)
  /-- GROUP_ADMIT (R130): A waiting group is admitted when register space frees. -/
  | groupAdmit (t : TileId)
  /-- L1_FILL (R142): Returned data of a load miss fills an L1 line or is not installed after an invalidation. -/
  | l1Fill (t : TileId) (n : Nat) (hw : List HostByte)
  /-- MERGE_BUFFER_DRAIN (R143): A merging-buffer entry idle for 64 tile cycles drains to its home. -/
  | mergeBufferDrain (t : TileId) (n : Nat) (fl : List Flaw)
  /-- CONV_WATCHDOG_EXPIRY (R139): A group's watchdog reaches 2^20 and the kernel aborts with ST_CONV_FAULT. -/
  | convWatchdogExpiry (t : TileId) (g : Nat)
  /-- KERNEL_ABORT_REMOTE_STOP (R140): Other tiles running the aborted kernel stop issue within 2 µs. -/
  | kernelAbortRemoteStop (t : TileId)
  /-- KERNEL_END (R149): The kernel ends on its last tile, releasing at system scope and completing its LAUNCH. -/
  | kernelEnd (t : TileId)
  /-- WAITS_TIMEOUT (R177): A WAITS with a TIMEOUT expires and returns with p[P] = 0. -/
  | waitsTimeout (t : TileId) (g : Nat) (l : Fin 64)
  /-- WAIT_RECORD_REGISTER (R267): A blocked WAITS registers when a tile wait record frees. -/
  | waitRecordRegister (t : TileId) (g : Nat) (l : Fin 64)
  /-- MX_OP_START (R68): A queued matrix operation starts once the interlock and overlap rules allow. -/
  | mxOpStart (t : TileId) (a : Fin 2)
  /-- MX_OP_COMPLETE (R66): A matrix operation writes its last result and signals if SIGV is set. -/
  | mxOpComplete (t : TileId) (a : Fin 2) (fl : List Flaw)
  /-- VX_BASIC_OP (R113): VE runs an arithmetic, compare, select or bitwise operation over COUNT elements. -/
  | vxBasicOp (t : TileId) (fl : List Flaw)
  /-- VX_CVT (R114): VE converts a stream between formats. -/
  | vxCvt (t : TileId) (fl : List Flaw)
  /-- VX_QNT (R114): VE quantises a stream, setting MX block scales where needed. -/
  | vxQnt (t : TileId) (fl : List Flaw)
  /-- VX_TRANSCENDENTAL (R116): VE evaluates a transcendental function over a stream. -/
  | vxTranscendental (t : TileId) (fl : List Flaw)
  /-- UPDATE_ADAMW (R122): VE applies an AdamW step to masters, moments and working copies. -/
  | updateAdamw (t : TileId) (fl : List Flaw)
  /-- UPDATE_SGDM (R122): VE applies an SGD-momentum step. -/
  | updateSgdm (t : TileId) (fl : List Flaw)
  /-- VX_OP_COMPLETE (R136): A vector operation writes its last element and records and signals if SIGV is set. -/
  | vxOpComplete (t : TileId)
  /-- DX_OP_START (R190): A queued DX operation starts, at most four running. -/
  | dxOpStart (t : TileId)
  /-- DX_OP_COMPLETE (R190): A DX operation's last write is acknowledged and it signals if SIGV is set. -/
  | dxOpComplete (t : TileId) (n : Nat) (hw : List HostByte) (fl : List Flaw)
  /-- NEAR_CACHE_ACCESS (R202): A request reaches its home near cache and is served or allocated. -/
  | nearCacheAccess (x : PoolAccess)
  /-- WORD_ATOMIC (R207): A word atomic is performed in the home near cache. -/
  | wordAtomic (r : Requester) (pa : Nat) (op : AtomOp) (wide : Bool) (cmp b : W64)
  /-- BULK_REDUCTION (R206): An adder bank performs a read-modify-write reduction on a 256 B unit. -/
  | bulkReduction (r : Requester) (pa : Nat) (op : RedOp) (fmt : RedFmt) (data : List Byte) (poison : Bool) (err : EccEvent)
  /-- AGITATOR_READ (R213): The agitator reads and corrects or poisons the next burst of its pass. -/
  | agitatorRead (s : StackId) (err : EccEvent)
  /-- PHY_RECALIBRATION (R212): A channel's PHY recalibrates every 64 ms, pausing its pseudo-channels. -/
  | phyRecalibration (s : StackId) (ch : Fin 16)
  /-- REFRESH_MANAGEMENT (R212): A bank's activation count reaches the threshold and RFM is issued. -/
  | refreshManagement (s : StackId) (pc : Fin 32) (bank : Nat)
  /-- PC_FAILURE (R214): A pseudo-channel fails in service and is marked failed. -/
  | pcFailure (s : StackId) (pc : Fin 32)
  /-- HBM_ECC_CLR (R210): Writing CLR clears the stack's error counts and ERRADDR. -/
  | hbmEccClr (o : Origin) (s : StackId) (v : W64)
  /-- TGEN_START (R215): Starts a pseudo-channel traffic generator. -/
  | tgenStart (o : Origin) (s : StackId) (pc : Fin 32) (v : W64)
  /-- TGEN_STOP (R215): Stops a traffic generator after the current unit. -/
  | tgenStop (o : Origin) (s : StackId) (pc : Fin 32) (v : W64)
  /-- TGEN_DONE (R215): A traffic-generator run ends and sets DONE. -/
  | tgenDone (s : StackId) (pc : Fin 32) (errors : BitVec 16) (first : Option (BitVec 25)) (ecc : List (BitVec 30 × EccEvent))
  /-- P1500_GO (R216): Starts an IEEE 1500 wrapper instruction and shift on a stack. -/
  | p1500Go (o : Origin) (s : StackId) (v : W32)
  /-- P1500_DONE (R216): A 1500 GO ends and sets DONE. -/
  | p1500Done (s : StackId) (ecc : List (BitVec 30 × EccEvent))
  /-- APPLY (R199): Requests an interleave change of a band, checked against R198. -/
  | applyBand (o : Origin) (s : StackId) (b : Fin 32) (v : W32)
  /-- BAND_CHANGE_COMPLETE (R199): The zero-fill of a band change ends and ACTIVE takes the checked values. -/
  | bandChangeComplete (b : Fin 32)
  /-- PAGE_WALK_COMPLETE (R224): A page-table walk ends in a translation or a fault and fills the TLBs. -/
  | pageWalkComplete (w : Walk)
  /-- WINDOW_CTL_WRITE (R235): Write to a receive window's control register, enabling, disabling or latching. -/
  | windowCtlWrite (o : Origin) (w : WinId) (v : W64)
  /-- WINDOW_DRAIN_END (R235): A disabled window's accepted requests complete and a latched enable takes effect. -/
  | windowDrainEnd (w : WinId)
  /-- ENGINE_READ_SNOOP (R245): An engine read snoop is serialised at the ordering point and M copies go to S. -/
  | engineReadSnoop (u : Nat)
  /-- ENGINE_WRITE_SNOOP (R245): An engine write snoop invalidates core copies and holds the line until the write. -/
  | engineWriteSnoop (u : Nat)
  /-- CORE_LOAD_MISS (R243): A server-core load miss obtains the line in S. -/
  | coreLoadMiss (k : CoreId) (pa : CoreLoad) (hw : List HostByte) (err : EccEvent)
  /-- CORE_STORE_MISS (R243): A server-core store miss or upgrade obtains the line in M. -/
  | coreStoreMiss (k : CoreId) (pa : Nat) (data : List Byte) (hw : List HostByte)
  /-- CORE_AMO (R239): A server-core AMO to HBM invalidates cached copies and runs at the near cache. -/
  | coreAmo (k : CoreId) (pa : Nat) (op : AtomOp) (wide : Bool) (cmp b : W64)
  /-- LR_SC (R239): LR/SC performed in the core's L2 with the line held Modified. -/
  | lrSc (k : CoreId) (pa : Nat) (sc : Option (List Byte))
  /-- L2_EVICTION (R243): An L2 line moves to the L3. -/
  | l2Eviction (k : CoreId) (line : Nat) (err : EccEvent)
  /-- L3_EVICTION (R243): An L3 line is written back or dropped. -/
  | l3Eviction (line : Nat) (err : EccEvent)
  /-- CBO_CLEAN (R243): Writes back a Modified line, leaving it S. -/
  | cboClean (k : CoreId) (pa : Nat)
  /-- CBO_FLUSH (R243): Writes back and invalidates a line everywhere. -/
  | cboFlush (k : CoreId) (pa : Nat)
  /-- CBO_INVAL (R236): Executes as CBO.FLUSH. -/
  | cboInval (k : CoreId) (pa : Nat)
  /-- CBO_ZERO (R243): Zeroes a line held in M. -/
  | cboZero (k : CoreId) (pa : Nat)
  /-- IMSIC_WRITE (R240): A write of an identity to an IMSIC interrupt file. -/
  | imsicWrite (o : Origin) (k : CoreId) (file : ImsicFile) (ident : W32)
  /-- HOST_BAR2_READ (R250): A host read through BAR2 performed at the home near cache. -/
  | hostBar2Read (off : Nat) (len : Nat)
  /-- HOST_BAR2_WRITE (R251): A host posted write through BAR2, in arrival order. -/
  | hostBar2Write (off : Nat) (data : List Byte)
  /-- SNP_INV (R248): Host CXL snoop invalidating device copies of a host line. -/
  | snpInv (line : Nat)
  /-- SNP_DATA (R248): Host CXL snoop moving the line to S. -/
  | snpData (line : Nat)
  /-- SNP_CUR (R248): Host CXL snoop returning current data without state change. -/
  | snpCur (line : Nat)
  /-- HOST_LINE_EVICTION (R248): Eviction from the host-line cache, invalidating core copies first. -/
  | hostLineEviction (line : Nat) (err : EccEvent)
  /-- SIGNAL_APPLY (R253): A signal arrives at the object's home and adds its increment. -/
  | signalApply (n : Nat)
  /-- WAIT_REGISTER (R254): A wait arrives at its home and is evaluated or registered. -/
  | waitRegister (n : Nat)
  /-- SYNC_CTX_SIG (R263): Write to a context signal register signalling an object. -/
  | syncCtxSig (o : Origin) (c : CtxId) (v : W64)
  /-- ARM_SLOT_WRITE (R264): Write to an arm slot registering or cancelling a one-shot wait. -/
  | armSlotWrite (o : Origin) (c : CtxId) (a : Fin 8) (v : W64)
  /-- SYNC_OBJ_VAL_WRITE (R269): Debug write of a physical object's value, evaluating waits. -/
  | syncObjValWrite (o : Origin) (p : ObjId) (v : W32)
  /-- SQ_TAIL (R276): Tail doorbell write covering submission slots or stopping the queue. -/
  | sqTail (o : Origin) (q : QId) (v : W32)
  /-- CQ_HEAD (R276): Head doorbell write freeing completion entries. -/
  | cqHead (o : Origin) (q : QId) (v : W32)
  /-- SQ_FETCH (R280): Slot reads return and the command's seal is checked. -/
  | sqFetch (q : QId) (hw : List HostByte)
  /-- SQ_FETCH_RETRY (R280): After 500 ns the slots are re-read; after 32 retries ST_TORN stops the queue. -/
  | sqFetchRetry (q : QId) (hw : List HostByte)
  /-- COMMAND_START (R285): A fetched command takes a place and starts under the order rules. -/
  | commandStart (q : QId)
  /-- CQ_POST (R282): A completion entry is written at TAIL and the interrupt sent. -/
  | cqPost (q : QId)
  /-- SQ_ENABLE (R297): Write of ENABLE in CMD_SQq_CTL enabling, disabling or latching the queue. -/
  | sqEnable (o : Origin) (q : QId) (v : W64)
  /-- CQ_ENABLE (R297): Write of ENABLE in CMD_CQq_CTL enabling, disabling or latching the queue. -/
  | cqEnable (o : Origin) (q : QId) (v : W64)
  /-- QUEUE_DRAIN_END (R297): A draining queue becomes DISABLED or takes its latched enable. -/
  | queueDrainEnd (cq : Bool) (q : QId)
  /-- CONTEXT_DRAIN_END (R298): A destroyed context becomes FREE and a latched CONTEXT_CREATE takes effect. -/
  | contextDrainEnd (c : CtxId)
  /-- FUNCTION_DRAIN_END (R298): A function's destroy drain ends and its state settles. -/
  | functionDrainEnd (f : FuncId)
  /-- NOP_CMD (R287): Queue command that does nothing. -/
  | nopCmd (q : QId) (n : Nat)
  /-- FENCE_CMD (R285): Completes after earlier commands complete and release at system scope. -/
  | fenceCmd (q : QId) (n : Nat)
  /-- SIGNAL (R285): Queue command acting as FENCE and then signalling an object. -/
  | signalCmd (q : QId) (n : Nat)
  /-- WAIT (R285): Queue command blocking later commands until an object reaches a target. -/
  | waitCmd (q : QId) (n : Nat)
  /-- WAIT_TIMEOUT (R287): A queue WAIT's TIMEOUT expires and it completes with ST_TIMEOUT. -/
  | waitTimeout (q : QId) (n : Nat)
  /-- LAUNCH (R288): Copies the argument block and places a kernel's groups on the named tiles. -/
  | launch (q : QId) (n : Nat) (hw : List HostByte)
  /-- COPY (R287): Hub DMA copy between virtual addresses. -/
  | copyCmd (q : QId) (n : Nat)
  /-- WRITE_INLINE (R287): Writes inline command data to a virtual address. -/
  | writeInline (q : QId) (n : Nat)
  /-- FILL (R287): Fills a range with an 8-byte pattern. -/
  | fillCmd (q : QId) (n : Nat)
  /-- REDUCE_COPY (R287): Bulk reduction of a source into HBM. -/
  | reduceCopy (q : QId) (n : Nat)
  /-- COLLECTIVE (R330): Starts a collective from its descriptor on the sequencer. -/
  | collective (q : QId) (n : Nat) (hw : List HostByte)
  /-- CHECKPOINT_SAVE (R339): Saves registered regions as a proof at buddy nodes. -/
  | checkpointSave (q : QId) (n : Nat) (hw : List HostByte)
  /-- CHECKPOINT_RESTORE (R342): Restores regions from a buddy proof. -/
  | checkpointRestore (q : QId) (n : Nat) (hw : List HostByte)
  /-- MAP_RANGE (R292): Writes leaves for a range after checking it whole. -/
  | mapRange (q : QId) (n : Nat)
  /-- UNMAP_RANGE (R292): Clears leaves of a range after checking it whole. -/
  | unmapRange (q : QId) (n : Nat)
  /-- TLB_INVALIDATE (R293): Invalidates translations or object-table entries at the given scope. -/
  | tlbInvalidate (q : QId) (n : Nat)
  /-- QUERY (R294): Returns a feature word, the hub TEL count or a context fault register. -/
  | query (q : QId) (n : Nat)
  /-- FEATURE_NEGOTIATE (R291): Sets DRV_ACCEPT to the offered subset of the request. -/
  | featureNegotiate (q : QId) (n : Nat)
  /-- POWER_BUDGET (R353): Sets CAP, WINDOW and power-group settings. -/
  | powerBudget (q : QId) (n : Nat)
  /-- CONTEXT_CREATE (R289): Sets up a FREE context after checking its tables. -/
  | contextCreate (q : QId) (n : Nat)
  /-- CONTEXT_DESTROY (R290): Drains and destroys a context, making it FREE. -/
  | contextDestroy (q : QId) (n : Nat)
  /-- CONTEXT_PREEMPT (R299): Waits for a context's kernels on tiles, saves their scratchpads and makes it PREEMPTED. -/
  | contextPreempt (q : QId) (n : Nat)
  /-- PREEMPT_TIMEOUT (R299): WAIT_US expires: ST_TIMEOUT or forced abort. -/
  | preemptTimeout (q : QId) (n : Nat)
  /-- CONTEXT_RESUME (R300): Restores saved tile records and makes the context ACTIVE. -/
  | contextResume (q : QId) (n : Nat)
  /-- CLAIM (R307): Advances the driver epoch and marks the driver attached. -/
  | claim (o : Origin) (v : W64)
  /-- DETACH (R307): Marks the driver detached. -/
  | detach (o : Origin) (v : W64)
  /-- ADOPT (R307): Sets an orphaned context's epoch to the current driver epoch. -/
  | adopt (o : Origin) (c : CtxId) (v : W64)
  /-- DRV_ACCEPT_WRITE (R405): Register write of accepted features while unlocked. -/
  | drvAcceptWrite (o : Origin) (h : Fin 2) (v : W64)
  /-- PERST (R306): PERST# assertion resets only the PCIe/CXL controller and configuration space. -/
  | perst (level : PerstLevel)
  /-- HOT_RESET (R306): PCIe hot reset with the effects of R306. -/
  | hotReset
  /-- LINK_DOWN (R306): Link-down resets the controller and makes host memory unreachable. -/
  | linkDown
  /-- SURPRISE_REMOVAL (R306): Surprise removal of the link with the effects of R306. -/
  | surpriseRemoval
  /-- LINK_RECOVERY (R306): Link retrain through Recovery; requests wait and replay. -/
  | linkRecovery
  /-- HOST_UNREACHABLE (R305): Bus Master clear, D3hot or a failed completion makes host memory unreachable. -/
  | hostUnreachable (f : FuncId) (cause : UnreachCause)
  /-- FUNCTION_LEVEL_RESET (R377): Destroys the function's contexts, wipes their memory and disables its queues. -/
  | functionLevelReset (f : FuncId)
  /-- VF_ENABLE_CLEAR (R298): Clearing VF Enable destroys the VFs' contexts. -/
  | vfEnableClear
  /-- QUAD_TRAINING (R313): A quad trains, exchanging NODE_ID and INCARN, to UP, half width or FAILED. -/
  | quadTraining (q : QuadId) (r : QuadTrain)
  /-- QUAD_TRAIN_RETRY (R313): A FAILED quad retries training after 1 s. -/
  | quadTrainRetry (q : QuadId) (r : QuadTrain)
  /-- NL_REPLAY (R327): A link NAK or 2 µs without progress replays the NL replay buffer; 16 replays retrain. -/
  | nlReplay (q : QuadId) (nak : Bool) (lost : List (Nat × Bool))
  /-- LINK_CONTROL_FRAME (R327): An NL link control frame returns credits and acknowledgements. -/
  | linkControlFrame (q : QuadId) (hdr : W64)
  /-- WRITE_FRAME (R317): Received WRITE request, checked against its window and performed once. -/
  | writeFrame (f : Frame)
  /-- READ_FRAME (R317): Received READ request answered with READ_RESP. -/
  | readFrame (f : Frame)
  /-- SIGNAL_FRAME (R262): Received SIGNAL request looked up and applied. -/
  | signalFrame (f : Frame)
  /-- REDUCE_WRITE (R317): Received reduce-write performed at an adder bank. -/
  | reduceWrite (f : Frame)
  /-- READ_RESP (R316): Response carrying read data or a refusal. -/
  | readResp (f : Frame)
  /-- ACK (R317): Acknowledgement of performed requests, with ECN echo. -/
  | ack (f : Frame)
  /-- NAK (R317): Refusal of a request with a window fault reason. -/
  | nak (f : Frame)
  /-- ABORT (R335): Received ABORT ends or is remembered for a collective. -/
  | abortFrame (f : Frame)
  /-- REPORT (R364): Received BUDGET REPORT of a group member. -/
  | report (f : Frame)
  /-- GRANT (R367): Received BUDGET GRANT burned, renewed or returned. -/
  | grant (f : Frame)
  /-- RETURN (R368): Received BUDGET RETURN removing a grant from the donor's D. -/
  | ret (f : Frame)
  /-- REQUEST_TIMEOUT (R319): An unanswered request is retransmitted or its receiver declared lost. -/
  | requestTimeout (node : BitVec 20) (psn : W32)
  /-- XPORT_CLR (R320): Clears the lost state of a node. -/
  | xportClr (o : Origin) (v : W64)
  /-- ADDRTAB_INV (R324): Empties the address-table entry cache. -/
  | addrtabInv (o : Origin) (v : W64)
  /-- NIC_TX_TAIL (R326): Software advances a NIC transmit ring tail. -/
  | nicTxTail (o : Origin) (r : Fin 64) (v : W64)
  /-- NIC_RECEIVE (R326): A received Ethernet packet goes to transport or a NIC receive ring. -/
  | nicReceive (q : QuadId) (p : Packet)
  /-- COLLECTIVE_WAIT_SATISFIED (R333): A READY or DATA wait of a collective is met and the schedule advances. -/
  | collectiveWaitSatisfied (id : W32) (hw : StageRead)
  /-- COLLECTIVE_TIMEOUT (R335): A collective's TIMEOUT expires; ST_TIMEOUT and ABORT. -/
  | collectiveTimeout (id : W32) (hw : List HostByte)
  /-- ABORT_MEMORY_EXPIRY (R335): A remembered ABORT is forgotten after 10 ms. -/
  | abortMemoryExpiry (id : W32)
  /-- CKPT_HELD_WRITE (R340): A write to a protected block waits and the block is copied ahead. -/
  | ckptHeldWrite (r : Requester) (pa : Nat) (data : List Byte)
  /-- CKPT_BLOCK_READ_COMPLETE (R340): A block read completes, ending its protection and releasing held writes. -/
  | ckptBlockReadComplete (b : BlockEnd)
  /-- CAP_CONTROL_TICK (R354): The 1 ms cap controller updates L_CAP and UNMET. -/
  | capControlTick (p a : Nat)
  /-- LCAP_WATCHDOG (R402): L_CAP unwritten for 10 ms is forced to 16. -/
  | lcapWatchdog
  /-- PWR_CAP_WRITE (R353): Register write of CAP and WINDOW, resetting the controller history. -/
  | pwrCapWrite (o : Origin) (v : W64)
  /-- DROOP_REPORT (R356): A droop detector report clamps the die's arrays to 16 slots. -/
  | droopReport (t : TileId) (low : Bool)
  /-- SHUTTER_RELEASE (R356): 256 array cycles after the last droop the clamp ends. -/
  | shutterRelease (d : DieId)
  /-- CLK_ARR_TARGET (R357): Write of TARGET starting or latching an efficiency-point change. -/
  | clkArrTarget (o : Origin) (v : W64)
  /-- ARR_PATTERN_SWITCH (R357): At a window boundary the pulse-removal pattern switches. -/
  | arrPatternSwitch (d : DieId)
  /-- HOLD_RELEASE (R357): 256 array cycles after the switch HOLD clears. -/
  | holdRelease (d : DieId)
  /-- VDD_ARR_RAMP_DONE (R357): VDD_ARR reaches its set point and the change completes or proceeds. -/
  | vddArrRampDone (d : DieId)
  /-- THERMAL_TICK (R359): 1 ms sensor read updating L_THERM and the hub SRV ceiling. -/
  | thermalTick (dieTemps : List (BitVec 8)) (stackTemps : Sensed)
  /-- THERMAL_STEP_DOWN (R360): After 100 ms at L_THERM ≤ 16 a die steps down one point. -/
  | thermalStepDown (d : DieId)
  /-- THERMAL_STEP_UP (R360): After 1 s below 95 °C a stepped die steps up one point. -/
  | thermalStepUp (d : DieId)
  /-- THERMAL_TRIP (R361): A die reaches 115 °C: compute die fenced or module powered off. -/
  | thermalTrip (x : Fin 5)
  /-- TRIP_CLEAR (R361): Writing 1 to TRIP clears it and the trip latch. -/
  | tripClear (o : Origin) (x : Fin 5) (v : W64)
  /-- CLRPEAK (R361): Sets PEAK to the current temperature. -/
  | clrpeak (o : Origin) (x : Fin 5) (v : W64)
  /-- CLK_SRV_DIV (R351): Write of a server core's SRV divider. -/
  | clkSrvDiv (o : Origin) (k : CoreId) (v : W32)
  /-- VDD_SRV_RAMP_DONE (R351): VDD_SRV reaches its set point and a raised frequency takes effect. -/
  | vddSrvRampDone (k : CoreId)
  /-- POWER_EPOCH (R366): 10 ms epoch: report, renew, return, donate or reclaim budget. -/
  | powerEpoch (waitTicks : Nat)
  /-- GRANT_LEASE_EXPIRY (R368): A received grant not renewed within 50 ms leaves R. -/
  | grantLeaseExpiry (idx : Fin 64) (id : W32)
  /-- DONATION_EXPIRY (R368): A donated grant leaves D 100 ms after its last GRANT. -/
  | donationExpiry (id : W32)
  /-- JOIN_HOLD_END (R363): The 100 ms hold at 700 W after joining a group ends. -/
  | joinHoldEnd
  /-- GROUP_LEAVE_COMPLETE (R369): D reaches 0 and the leaving POWER_BUDGET applies its new settings. -/
  | groupLeaveComplete
  /-- SUPPLY_VALID (R347): A supply input enters its valid range. -/
  | supplyValid (i : Supply) (gapMet : SupplyRise)
  /-- SUPPLY_LOST (R347): A supply input leaves its range; loss of VIN_MAIN stops the module. -/
  | supplyLost (i : Supply)
  /-- VIN_MAIN_DIP (R345): A short dip of VIN_MAIN is ridden through and counted. -/
  | vinMainDip (us mv : Nat)
  /-- PLL_LOSS_OF_LOCK (R350): A PLL loses lock with the effect for its kind. -/
  | pllLossOfLock (p : Pll)
  /-- REFCLK_LOSS (R426): No REFCLK edge for 200 ns holds every die in reset. -/
  | refclkLoss
  /-- REFCLK_RETURN (R350): REFCLK returns and a cold reset follows. -/
  | refclkReturn
  /-- COLD_RESET (R374): Cold reset of the module with the effects of the reset matrix. -/
  | coldReset (b : Bringup)
  /-- WARM (R375): GLB_RESET WARM with KEY requests a warm device reset. -/
  | warm (o : Origin) (v : W64) (b : Bringup)
  /-- DIE (R385): GLB_RESET DIE bit with KEY requests a die reset. -/
  | dieReset (o : Origin) (v : W64) (b : Bringup)
  /-- TILE_GO (R376): Resets a tile, aborting its kernel and clearing its state. -/
  | tileGo (o : Origin) (v : W64)
  /-- CTX_GO (R378): Resets a context, aborting its kernels and re-determining exposure. -/
  | ctxGo (o : Origin) (v : W64)
  /-- HEARTBEAT (R379): The hub sends the 1 µs heartbeat to each compute die. -/
  | heartbeat (answered : BitVec 4)
  /-- HEARTBEAT_TIMEOUT (R379): No heartbeat answer for 8 µs fences the die. -/
  | heartbeatTimeout (d : DieId)
  /-- EXPOSURE_DETERMINED (R382): Zoilo finishes determining exposure and sets GLB_CTX_EXPOSED. -/
  | exposureDetermined (d : DieId)
  /-- HUB_LOSS (R386): Loss of the hub stops the dies and starts a cold reset. -/
  | hubLoss (c : HubLossCause)
  /-- D2D_MODULE_FAILURE (R20): A die-to-die module fails in service; traffic moves or the edge is disabled. -/
  | d2dModuleFailure (d : DieId) (m : Fin 24) (retried : Bool)
  /-- D2D_LOOPBACK_TEST (R21): Service software puts a die in stand-alone loop-back test mode. -/
  | d2dLoopbackTest (x : Fin 5) (on : Bool)
  /-- SATCNT_CLR (R103): Writing CLR zeroes COUNT and TILES_OVER. -/
  | satcntClr (o : Origin) (t : TileId) (v : W64)
  /-- PMC_CLEAR (R396): Zeroes every counter and OVF of a die. -/
  | pmcClear (o : Origin) (x : Fin 5) (v : W32)
  /-- PMC_FREEZE (R396): Stops or resumes all eight counters of a die at once. -/
  | pmcFreeze (o : Origin) (x : Fin 5) (v : W32)
  /-- SERVICE_WATCHDOG_EXPIRY (R401): A control-core watchdog expires and Z7 restarts or holds down the service. -/
  | serviceWatchdogExpiry (z : ServiceEvent)
  /-- NEXT_FLASH_STORE (R375): Zoilo stores an accepted NEXT or NODE_ID write in module flash. -/
  | nextFlashStore
  /-- TELEMETRY_TICK (R403): Z4 writes a telemetry record every millisecond. -/
  | telemetryTick (m : Traffic)
  /-- NEGATIVE_FREEZE (R415): FREEZE write stops the trace buffers or resumes and discards them. -/
  | negativeFreeze (o : Origin) (v : W64)
  /-- GET_IDENTITY (R417): Returns DEVID, steppings, state, version and health. -/
  | getIdentity
  /-- GET_CERT (R417): Returns the device certificate. -/
  | getCert
  /-- ATTEST (R411): Signs and returns an attestation report over a nonce. -/
  | attest (nonce : List Byte)
  /-- FW_WRITE (R417): Writes part of an image into the slot not running. -/
  | fwWrite (off : Nat) (data : List Byte)
  /-- FW_COMMIT (R417): Verifies the written slot and marks it valid. -/
  | fwCommit
  /-- FW_SVN_COMMIT (R408): Raises the fused SVN to that of the running image. -/
  | fwSvnCommit
  /-- LC_NONCE (R417): Returns the current transition nonce. -/
  | lcNonce
  /-- LC_REQUEST (R413): Requests an authorised life-cycle transition. -/
  | lcRequest (dest : Nat) (nonce : W64) (token : List Byte)
  /-- GET_TELEMETRY (R417): Returns telemetry records. -/
  | getTelemetry (secs : Bool) (first count : Nat)
  /-- GET_LOG (R417): Returns Zoilo's RAS history. -/
  | getLog (first count : Nat)
  /-- TRACE_READ (R417): Returns part of the frozen negative. -/
  | traceRead (x : Fin 5) (off : Nat)
  /-- MCTP_CONTROL (R416): MCTP control message handled by the endpoint. -/
  | mctpControl (msg : MgmtIn)
  /-- PLDM_REQUEST (R416): PLDM base, monitoring or FRU request handled by the endpoint. -/
  | pldmRequest (msg : List Byte)
  /-- PRSNT_N (R433): Presence change on insertion or removal. -/
  | prsntN (high : Bool)
  /-- MOD_RST_N (R428): Module reset input low for 10 µs starts a cold reset. -/
  | modRstN (ns : Nat) (starts : Bool) (released : Bool)
  /-- JTAG_INSTRUCTION (R432): A TAP instruction loaded on the hub's JTAG port. -/
  | jtagInstruction (ir : JtagInstr)
  /-- REGISTER_WRITE (R7): Write to a register without its own row, combining 64-bit halves. -/
  | registerWrite (o : Origin) (off : Nat) (bytes : Nat) (v : W64)
  /-- HUB_DMA_COMPLETE (R287): A COPY, WRITE_INLINE, FILL or REDUCE_COPY running on the hub's DMA engines performs its last write and the command completes. -/
  | hubDmaComplete (q : QId) (n : Nat) (hw : List HostByte)
  /-- CONFIGURATION_REQUEST (R298): A host PCIe configuration request, such as setting Bus Master Enable, leaving D3hot or setting VF Enable and NumVFs, is answered or retried. -/
  | configurationRequest (f : FuncId) (r : ConfigReq)
  /-- LINK_UP (R304): The PCIe link finishes training, in CXL mode or as PCIe only, and DEV_FEATURES bit 6 follows the mode. -/
  | linkUp (cxl : Bool)
  /-- DIE_FABRIC_ERROR (R379): An uncorrectable error in a compute die's network on chip or sync block fences that die with cause 0x4. -/
  | dieFabricError (d : DieId)
  /-- PLL_RELOCK (R350): A PLL that lost lock, such as the SerDes or PCIe PLL, locks again, and the quads retrain or the link comes back. -/
  | pllRelock (p : Pll)
deriving DecidableEq, Repr

end Sys2Proof
end

