-- ==== Sys2Proof/Decode.lean ====
section
/-! DEFINITION. The commands are named by the rows of the table of operations and events, and no row has bits:
the block has no instruction words of its own. The words of kernel instructions (R152) are operands of their rows
and are taken apart in Machine/Operands.lean. -/

namespace Sys2Proof

/-- The command that a word of the table's bits spells: none, since no row gives bits. -/
def decodeTableWord (nbits w : Nat) : Option Instr :=
  match nbits, w with
  | _, _ => none

end Sys2Proof
end

