-- ==== Sys2Proof/Config.lean ====
section
/-! DEFINITION. What the manual leaves open: every constant here has no body, so that nothing can be
proved of its value. The steps apply them to the model's free-value counter or to the operands. -/

namespace Sys2Proof.Config

/-- A value the manual does not fix (R76, R188, R215, R231, R331): the n-th one taken, at index i. -/
opaque freeBits : Nat → Nat → W64

/-- A draw of the grain generator (R53): stepping code, seed, step along the one stream of that seed. -/
opaque grain : BitVec 8 → W64 → Nat → BitVec 16

/-- A candidate for the value of a matrix, reduction or transcendental result before its conversion (R54, R116, R119), as two fp64
values: taken only where it lies inside the error the manual gives. First argument the free-value counter, second the element. -/
opaque candidate : Nat → Nat → BitVec 128

/-- Whether the loss of a set of compute dies loses every copy of a record that Zoilo keeps in two of the four regions of the firmware
reserve (R201, R372). -/
opaque recordsLost : BitVec 4 → Bool

/-- Whether the signature in a firmware image verifies under a public key (R406, R407). -/
opaque imageVerifies : List Byte → List (Nat × Byte) → Bool

/-- The features that a firmware image supports (R399). -/
opaque imageFeatures : List (Nat × Byte) → BitVec 8

/-- The bytes of a record of the negative (R415), whose layout the manual does not give: class, time, class data. -/
opaque traceBytes : Nat → W64 → BitVec 192 → List Byte

/-- Whether a life-cycle token verifies (R413): device, present state, requested state, nonce, token. -/
opaque tokenVerifies : W64 → Nat → Nat → W64 → List Byte → Bool

/-- The signature of a report at an index (R411): its bytes after the index. -/
opaque signature : Nat → List Byte → List Byte

/-- The endpoint's answer to an MCTP control or PLDM message (R416), whose contents DMTF's specifications give: message type, message, the
readings of the numeric sensors. -/
opaque mctpAnswer : Nat → List Byte → List Nat → List Byte

/-- The bytes of the FRU EEPROM outside the operator area (R431), which IPMI's layout gives: the device identity, the sequence-fault cause
recorded, the dies with a trip recorded, the offset. -/
opaque fruByte : W64 → Nat → BitVec 5 → Nat → Byte

/-- The JTAG manufacturer identity in the FRU EEPROM (R431, R432). -/
opaque jtagMaker : BitVec 11

/-- The device certificate (R409). -/
opaque certificate : W64 → List Byte

/-- A fresh life-cycle nonce (R413). -/
opaque nonce : Nat → W64

/-- The line of the near cache that an allocation replaces (R203): the choice is not architectural. -/
opaque victim : Nat → Nat

/-- The code of a memory in INFO of an SRAM_CE record (R393), by its place in the table of R388. -/
opaque sramCode : Nat → Nat

/-- The code of a PLL in INFO of a PLL_RELOCK record (R393), by its place in the table of R349. -/
opaque pllCode : Nat → Nat

/-- The Ethernet quad that a hash of destination and PSN chooses (R323). -/
opaque routeHash : Nat → Nat → Nat

/-- The bytes over which the entropy of a packet is computed (R325): SRC, DST, CLASS, PSN ÷ 16, in an order the manual does not give. -/
opaque entropyInput : BitVec 20 → BitVec 20 → BitVec 2 → Nat → List Byte

/-- The identification field of an IPv4 packet, which the manual does not give, by the PSN of its frame. -/
opaque ipIdent : W32 → BitVec 16

/-- The MAC address of a quad (R325), its first byte lowest. -/
opaque quadMac : Nat → BitVec 48

end Sys2Proof.Config
end

