-- ==== Sys2Proof/Machine/Sparse.lean ====
section
/-! DEFINITION. Sparse maps from numbers to values in one canonical form: keys strictly rising, and no entry
equal to what an unlisted key reads as. Memories and unit tables are kept so, so that equal contents are equal data. -/

namespace Sys2Proof.Machine

/-- Values by key. -/
abbrev Sparse (α : Type) := List (Nat × α)

/-- Bytes by address; an unlisted address reads 0 (R374 wipes every memory to zero). -/
abbrev Mem := Sparse Byte

/-- A set of numbers. -/
abbrev KeySet := Sparse Unit

/-- The entry at a key. -/
def Sparse.find? (m : Sparse α) (k : Nat) : Option α :=
  match m with
  | [] => none
  | (j, a) :: rest => if j = k then some a else Sparse.find? rest k

/-- What a key reads as, with `d` for an unlisted key. -/
def Sparse.read (d : α) (m : Sparse α) (k : Nat) : α := (Sparse.find? m k).getD d

/-- The map without a key. -/
def Sparse.drop (m : Sparse α) (k : Nat) : Sparse α :=
  match m with
  | [] => []
  | (j, a) :: rest => if j = k then rest else (j, a) :: Sparse.drop rest k

/-- The map with an entry at a key, in key order. -/
def Sparse.insert (m : Sparse α) (k : Nat) (v : α) : Sparse α :=
  match m with
  | [] => [(k, v)]
  | (j, a) :: rest =>
    if k < j then (k, v) :: (j, a) :: rest
    else if j = k then (k, v) :: rest
    else (j, a) :: Sparse.insert rest k v

/-- Writing a value: the value of an unlisted key removes the entry. -/
def Sparse.write [DecidableEq α] (d : α) (m : Sparse α) (k : Nat) (v : α) : Sparse α :=
  if v = d then Sparse.drop m k else Sparse.insert m k v

/-- The entries whose keys a test keeps. -/
def Sparse.keep (m : Sparse α) (p : Nat → Bool) : Sparse α := List.filter (fun e => p e.1) m

/-- Keys strictly rising, all above `lo` where one is given. -/
def Sparse.sortedFrom (lo : Option Nat) (m : Sparse α) : Bool :=
  match m with
  | [] => true
  | (j, _) :: rest => (match lo with | none => true | some l => decide (l < j)) && Sparse.sortedFrom (some j) rest

/-- The canonical form. -/
def Sparse.wf [DecidableEq α] (d : α) (m : Sparse α) : Bool :=
  Sparse.sortedFrom none m && m.all (fun e => decide (e.2 ≠ d))

/-- Every listed value changed; for a change that keeps the unlisted value as it is. -/
def Sparse.mapVals [DecidableEq α] (d : α) (m : Sparse α) (f : α → α) : Sparse α :=
  List.filterMap (fun e => if f e.2 = d then none else some (e.1, f e.2)) m

/-- Canonical form of a memory. -/
def Memory.wf (m : Mem) : Bool := Sparse.wf (0 : Byte) m

/-- The byte at an address. -/
def Mem.byte (m : Mem) (a : Nat) : Byte := Sparse.read (0 : Byte) m a

/-- The memory with one byte stored. -/
def Mem.setByte (m : Mem) (a : Nat) (b : Byte) : Mem := Sparse.write (0 : Byte) m a b

/-- `n` bytes from an address on. -/
def Mem.bytes (m : Mem) (a : Nat) : Nat → List Byte
  | 0 => []
  | n + 1 => Mem.byte m a :: Mem.bytes m (a + 1) n

/-- The memory with bytes stored from an address on. -/
def Mem.setBytes (m : Mem) (a : Nat) : List Byte → Mem
  | [] => m
  | b :: bs => Mem.setBytes (Mem.setByte m a b) (a + 1) bs

/-- The memory with the bytes of [a, a + n) zero. -/
def Mem.zero (m : Mem) (a n : Nat) : Mem := Sparse.keep m (fun k => k < a || a + n ≤ k)

/-- Whether a number is in a set. -/
def KeySet.has (m : KeySet) (k : Nat) : Bool := (Sparse.find? m k).isSome

/-- The set with a number. -/
def KeySet.add (m : KeySet) (k : Nat) : KeySet := Sparse.insert m k ()

/-- The set with every number of [k, k + n). -/
def KeySet.addRange (m : KeySet) (k : Nat) : Nat → KeySet
  | 0 => m
  | n + 1 => KeySet.addRange (KeySet.add m k) (k + 1) n

/-- Whether some number of [k, k + n) is in a set. -/
def KeySet.hasIn (m : KeySet) (k n : Nat) : Bool := m.any (fun e => k ≤ e.1 && e.1 < k + n)

/-- Entry i of a list replaced. -/
def setNth (l : List α) (i : Nat) (a : α) : List α := l.set i a

/-- The list without entry i. -/
def dropNth (l : List α) (i : Nat) : List α := l.eraseIdx i

end Sys2Proof.Machine
end

