-- ==== Sys2Proof/Machine/Bits.lean ====
section
/-! DEFINITION. Little-endian bytes (R5), fields of words, and small counters. -/

namespace Sys2Proof.Machine

/-- The `n` low bytes of a number, byte 0 first (R5). -/
def toBytes (v : Nat) : Nat → List Byte
  | 0 => []
  | n + 1 => BitVec.ofNat 8 v :: toBytes (v / 256) n

/-- The number that little-endian bytes hold (R5). -/
def ofBytes : List Byte → Nat
  | [] => 0
  | b :: bs => b.toNat + 256 * ofBytes bs

/-- The little-endian number of `n` bytes at an offset of a byte list. -/
def leAt (bs : List Byte) (off n : Nat) : Nat := ofBytes ((bs.drop off).take n)

/-- The bytes of a byte list with `new` in place from an offset on. -/
def patch (bs : List Byte) (off : Nat) (new : List Byte) : List Byte :=
  bs.take off ++ new ++ bs.drop (off + new.length)

/-- Bits [h:l] of a number. -/
def nfld (x h l : Nat) : Nat := (x / 2 ^ l) % 2 ^ (h + 1 - l)

/-- Bit i of a number. -/
def nbit (x i : Nat) : Bool := x.testBit i

/-- The word with bits [h:l] set to a number. -/
def setFld (x : BitVec w) (h l v : Nat) : BitVec w :=
  let mask : BitVec w := BitVec.ofNat w ((2 ^ (h + 1 - l) - 1) * 2 ^ l)
  (x &&& ~~~mask) ||| (BitVec.ofNat w (v % 2 ^ (h + 1 - l) * 2 ^ l))

/-- 1 or 0. -/
def b2n (b : Bool) : Nat := if b then 1 else 0

/-- The word with bit i set to b. -/
def setBit (x : BitVec w) (i : Nat) (b : Bool) : BitVec w :=
  if b then x ||| (BitVec.ofNat w (2 ^ i)) else x &&& ~~~(BitVec.ofNat w (2 ^ i))

/-- A counter that stops at its largest value (R395). -/
def satAdd (x : BitVec w) (n : Nat) : BitVec w :=
  if x.toNat + n < 2 ^ w then BitVec.ofNat w (x.toNat + n) else BitVec.allOnes w

/-- A number as a signed number of `w` bits. -/
def signed (w v : Nat) : Int :=
  let u := v % 2 ^ w
  if u < 2 ^ (w - 1) then (u : Int) else (u : Int) - (2 ^ w : Nat)

/-- A signed number as `w` bits. -/
def unsign (w : Nat) (v : Int) : Nat := (v % ((2 ^ w : Nat) : Int)).toNat

/-- ⌈a / b⌉. -/
def ceilDiv (a b : Nat) : Nat := (a + b - 1) / b

/-- floor(log2 n), 0 for 0. -/
def lg (n : Nat) : Nat := Nat.log2 n

/-- Positions from a number on, of the set bits of a mask. -/
def bitsSet (x : BitVec w) : List Nat := (List.range w).filter (fun i => x.getLsbD i)

/-- How many bits of a mask are set. -/
def popCount (x : BitVec w) : Nat := (bitsSet x).length

/-- The first index of a list whose element a test accepts. -/
def findIdx? (p : α → Bool) (l : List α) : Option Nat := l.findIdx? p

/-- (a − b) mod 2³² as the wrap-safe comparison of R254: a has reached b. -/
def reached (a b : W32) : Bool := (a - b).toNat < 2 ^ 31

/-- Whether two ranges of bytes meet. -/
def overlap (a n b m : Nat) : Bool := decide (a < b + m) && decide (b < a + n)

end Sys2Proof.Machine
end

