-- ==== Sys2Proof/Machine/Float.lean ====
section
/-! DEFINITION. The number formats (R31-R33), exact values, and the conversions with their rounding (R49-R52). -/

namespace Sys2Proof.Machine

/-- An exact value: NaN, an infinity, or m × 2^e / (d + 1). A negative zero reads as zero (R33). -/
inductive XR where
  | nan
  | inf (neg : Bool)
  | fin (m : Int) (e : Int) (d : Nat)
deriving DecidableEq, Repr

/-- The value of an integer. -/
def XR.int (i : Int) : XR := .fin i 0 0

/-- The value m × 2^e. -/
def XR.dy (m e : Int) : XR := .fin m e 0

def XR.zero : XR := .fin 0 0 0

def XR.one : XR := .fin 1 0 0

def XR.isNan : XR → Bool
  | .nan => true
  | _ => false

def XR.isInf : XR → Bool
  | .inf _ => true
  | _ => false

def XR.isZero : XR → Bool
  | .fin m _ _ => m == 0
  | _ => false

/-- Whether the value is below zero. -/
def XR.isNeg : XR → Bool
  | .nan => false
  | .inf n => n
  | .fin m _ _ => decide (m < 0)

/-- −x. -/
def XR.neg : XR → XR
  | .nan => .nan
  | .inf n => .inf (!n)
  | .fin m e d => .fin (-m) e d

/-- |x|. -/
def XR.abs : XR → XR
  | .nan => .nan
  | .inf _ => .inf false
  | .fin m e d => .fin m.natAbs e d

/-- m × 2^k for k ≥ 0. -/
def shl (m : Int) (k : Int) : Int := m * (2 ^ k.toNat : Nat)

/-- Sum (R40: opposite infinities give NaN). -/
def XR.add : XR → XR → XR
  | .nan, _ => .nan
  | _, .nan => .nan
  | .inf a, .inf b => if a = b then .inf a else .nan
  | .inf a, _ => .inf a
  | _, .inf b => .inf b
  | .fin m e d, .fin n f c =>
    let g := if e ≤ f then e else f
    if d = 0 ∧ c = 0 then .fin (shl m (e - g) + shl n (f - g)) g 0
    else .fin (shl m (e - g) * ((c : Int) + 1) + shl n (f - g) * ((d : Int) + 1)) g ((d + 1) * (c + 1) - 1)

/-- Product (R40: infinity times zero gives NaN). -/
def XR.mul : XR → XR → XR
  | .nan, _ => .nan
  | _, .nan => .nan
  | .inf a, y => if y.isZero then .nan else .inf (a != y.isNeg)
  | x, .inf b => if x.isZero then .nan else .inf (x.isNeg != b)
  | .fin m e d, .fin n f c => .fin (m * n) (e + f) ((d + 1) * (c + 1) - 1)

/-- Difference. -/
def XR.sub (x y : XR) : XR := x.add y.neg

/-- Quotient (R116: x/0 = ±∞, 0/0 and ∞/∞ NaN; a zero divisor counts as positive, R33). -/
def XR.div : XR → XR → XR
  | .nan, _ => .nan
  | _, .nan => .nan
  | .inf _, .inf _ => .nan
  | .inf a, y => .inf (a != y.isNeg)
  | .fin _ _ _, .inf _ => .zero
  | .fin m e d, .fin n f c =>
    if n = 0 then (if m = 0 then .nan else .inf (decide (m < 0)))
    else .fin ((if n < 0 then -m else m) * ((c : Int) + 1)) (e - f) ((d + 1) * n.natAbs - 1)

/-- Integer square root by bits, from bit `k` down. -/
def isqrtFrom (n : Nat) (r : Nat) : Nat → Nat
  | 0 => r
  | k + 1 =>
    let r' := r + 2 ^ k
    isqrtFrom n (if r' * r' ≤ n then r' else r) k

/-- floor(√n). -/
def isqrt (n : Nat) : Nat := isqrtFrom n 0 (Nat.log2 n / 2 + 1)

/-- Square root to 120 bits and a sticky bit, which rounds as the exact root does (R116: of a negative NaN, of zero +0). -/
def XR.sqrt : XR → XR
  | .nan => .nan
  | .inf n => if n then .nan else .inf false
  | .fin m e d =>
    if m < 0 then .nan
    else if m = 0 then .zero
    else
      -- value = (m / (d+1)) × 2^e; make the exponent even and the significand long
      let odd : Nat := if e % 2 = 0 then 0 else 1
      let num := m.natAbs * 2 ^ (240 + odd) / (d + 1)
      let exact := decide (num * (d + 1) = m.natAbs * 2 ^ (240 + odd))
      let s := isqrt num
      let sticky : Nat := if s * s = num ∧ exact then 0 else 1
      .fin ((2 * s + sticky : Nat) : Int) ((e - odd) / 2 - 121) 0

/-- Order: −1, 0 or 1; none with a NaN. -/
def XR.cmp : XR → XR → Option Int
  | .nan, _ => none
  | _, .nan => none
  | .inf a, .inf b => some (if a = b then 0 else if a then -1 else 1)
  | .inf a, _ => some (if a then -1 else 1)
  | _, .inf b => some (if b then 1 else -1)
  | .fin m e d, .fin n f c =>
    let g := if e ≤ f then e else f
    let x := shl m (e - g) * ((c : Int) + 1)
    let y := shl n (f - g) * ((d : Int) + 1)
    some (if x < y then -1 else if x = y then 0 else 1)

def XR.lt (x y : XR) : Bool := x.cmp y == some (-1)

def XR.le (x y : XR) : Bool := x.cmp y == some (-1) || x.cmp y == some 0

def XR.eqv (x y : XR) : Bool := x.cmp y == some 0

/-- floor(log2(num / den)) for positive numbers. -/
def lgQ (num den : Nat) : Int :=
  let k : Int := (Nat.log2 num : Int) - Nat.log2 den
  -- 2^k ≤ num/den < 2^(k+1), or one less
  if num * 2 ^ (-k).toNat < den * 2 ^ k.toNat then k - 1 else k

/-- floor(log2 |x|) of a finite value other than zero, else 0. -/
def XR.log2 : XR → Int
  | .fin m e d => if m = 0 then 0 else lgQ m.natAbs (d + 1) + e
  | _ => 0

/-- The rounding of one conversion (R49), with the draw a stochastic one takes (R50). -/
inductive Round where
  | near
  | zero
  | stoch (draw : BitVec 16)
deriving DecidableEq, Repr

/-- num / den rounded to a whole number: ties go to even, or away from zero where `away` says so (R49, R50). -/
def roundQ (r : Round) (away : Bool) (num den : Nat) : Nat :=
  let q := num / den
  let rem := num % den
  if rem = 0 then q
  else match r with
    | .near =>
      if 2 * rem < den then q
      else if den < 2 * rem then q + 1
      else if away || q % 2 == 1 then q + 1 else q
    | .zero => q
    | .stoch d => if 65536 ≤ rem * 65536 / den + d.toNat then q + 1 else q

/-- What encodings a float format spends on specials (R32). -/
inductive Specials where
  | ieee      -- infinities and NaNs
  | e5m2      -- the same encodings, but finite overflow gives the largest finite value (R51)
  | e4m3      -- one NaN, no infinity
  | finite    -- neither
deriving DecidableEq, Repr

/-- A float format (R32). -/
structure FloatFmt where
  ew : Nat
  fw : Nat
  bias : Nat
  sp : Specials
deriving DecidableEq, Repr

/-- The float formats by code of R31; the MX codes give their element formats. -/
def floatFmt : Nat → Option FloatFmt
  | 0x00 => some ⟨8, 7, 127, .ieee⟩
  | 0x01 => some ⟨5, 10, 15, .ieee⟩
  | 0x02 => some ⟨4, 3, 7, .e4m3⟩
  | 0x03 => some ⟨5, 2, 15, .e5m2⟩
  | 0x08 => some ⟨4, 3, 7, .e4m3⟩
  | 0x09 => some ⟨5, 2, 15, .e5m2⟩
  | 0x0A => some ⟨2, 3, 1, .finite⟩
  | 0x0B => some ⟨3, 2, 3, .finite⟩
  | 0x0C => some ⟨2, 1, 1, .finite⟩
  | 0x0E => some ⟨8, 23, 127, .ieee⟩
  | 0x0F => some ⟨11, 52, 1023, .ieee⟩
  | _ => none

/-- Lowest and highest value of an integer format (R32). -/
def intRange : Nat → Option (Int × Int)
  | 0x04 => some (-128, 127)
  | 0x05 => some (0, 255)
  | 0x06 => some (-32768, 32767)
  | 0x07 => some (-8, 7)
  | 0x10 => some (-2147483648, 2147483647)
  | _ => none

/-- Bits per element of a format (R31), scales not counted. -/
def fmtBits : Nat → Nat
  | 0x00 => 16 | 0x01 => 16 | 0x02 => 8 | 0x03 => 8 | 0x04 => 8 | 0x05 => 8 | 0x06 => 16 | 0x07 => 4
  | 0x08 => 8 | 0x09 => 8 | 0x0A => 6 | 0x0B => 6 | 0x0C => 4 | 0x0D => 8
  | 0x0E => 32 | 0x0F => 64 | 0x10 => 32 | 0x11 => 64
  | _ => 8

/-- Whether a code of R31 is assigned. -/
def fmtKnown (c : Nat) : Bool := c ≤ 0x11

/-- Whether a format is a block format (R33). -/
def isMx (c : Nat) : Bool := 0x08 ≤ c && c ≤ 0x0D

/-- Integer class for R83: 0x04-0x07. -/
def intClass (c : Nat) : Bool := 0x04 ≤ c && c ≤ 0x07

/-- A float's bits as a value (R32). -/
def decodeFloat (f : FloatFmt) (bits : Nat) : XR :=
  let frac := bits % 2 ^ f.fw
  let ex := bits / 2 ^ f.fw % 2 ^ f.ew
  let neg := bits / 2 ^ (f.fw + f.ew) % 2 = 1
  let top := 2 ^ f.ew - 1
  let fin : XR :=
    let m : Nat := if ex = 0 then frac else 2 ^ f.fw + frac
    let e : Int := (if ex = 0 then 1 else (ex : Int)) - f.bias - f.fw
    .fin (if neg then -(m : Int) else m) e 0
  match f.sp with
  | .ieee => if ex = top then (if frac = 0 then .inf neg else .nan) else fin
  | .e5m2 => if ex = top then (if frac = 0 then .inf neg else .nan) else fin
  | .e4m3 => if ex = top ∧ frac = 2 ^ f.fw - 1 then .nan else fin
  | .finite => fin

/-- The element of a format held in some bits (R31-R33); an fp32 pair is hi + lo. An MX element is without its scale. -/
def decodeElem (c : Nat) (bits : Nat) : XR :=
  match floatFmt c with
  | some f => decodeFloat f bits
  | none =>
    match c with
    | 0x04 => .int (signed 8 bits)
    | 0x05 => .int (bits % 256 : Nat)
    | 0x06 => .int (signed 16 bits)
    | 0x07 => .int (signed 4 bits)
    | 0x0D => .fin (signed 8 bits) (-6) 0
    | 0x10 => .int (signed 32 bits)
    | 0x11 =>
      (decodeFloat ⟨8, 23, 127, .ieee⟩ (bits % 2 ^ 32)).add (decodeFloat ⟨8, 23, 127, .ieee⟩ (bits / 2 ^ 32))
    | _ => .nan

/-- The canonical NaN of a float format; 0 where the format has none (R51). -/
def nanBits (f : FloatFmt) : Nat :=
  match f.sp with
  | .ieee => (2 ^ f.ew - 1) * 2 ^ f.fw + 2 ^ (f.fw - 1)
  | .e5m2 => 0x7F
  | .e4m3 => 0x7F
  | .finite => 0

/-- The bits of the largest finite magnitude (R32). -/
def maxBits (f : FloatFmt) : Nat :=
  match f.sp with
  | .ieee => (2 ^ f.ew - 1) * 2 ^ f.fw - 1
  | .e5m2 => (2 ^ f.ew - 1) * 2 ^ f.fw - 1
  | .e4m3 => 2 ^ (f.ew + f.fw) - 2
  | .finite => 2 ^ (f.ew + f.fw) - 1

/-- The sign bit of a float format. -/
def signBit (f : FloatFmt) (neg : Bool) : Nat := if neg then 2 ^ (f.ew + f.fw) else 0

/-- A value rounded and converted to a float format (R49-R52): its bits, and whether it counts as saturated. A value above the largest
finite one that rounds back to it is not counted as a substitute for it (LOG 137). -/
def encodeFloat (f : FloatFmt) (r : Round) (x : XR) : Nat × Bool :=
  match x with
  | .nan => (nanBits f, false)
  | .inf neg =>
    match f.sp with
    | .ieee => (signBit f neg + (2 ^ f.ew - 1) * 2 ^ f.fw, false)
    | .e5m2 => (signBit f neg + (2 ^ f.ew - 1) * 2 ^ f.fw, false)
    | .e4m3 => (0x7F, true)
    | .finite => (signBit f neg + maxBits f, true)
  | .fin m e d =>
    if m = 0 then (0, false)
    else
      let neg := decide (m < 0)
      let ex := lgQ m.natAbs (d + 1) + e
      let emin : Int := 1 - f.bias
      let q : Int := (if ex < emin then emin else ex) - f.fw
      -- |x| / 2^q = m × 2^(e-q) / (d+1)
      let k := e - q
      let n := roundQ r false (m.natAbs * 2 ^ k.toNat) ((d + 1) * 2 ^ (-k).toNat)
      let up := decide (2 ^ (f.fw + 1) ≤ n)
      let n' := if up then n / 2 else n
      let q' := if up then q + 1 else q
      let bits : Nat := if n' < 2 ^ f.fw then n' else ((q' + f.fw + f.bias).toNat) * 2 ^ f.fw + (n' - 2 ^ f.fw)
      if bits ≤ maxBits f then (signBit f neg + bits, false)
      else
        match f.sp, r with
        | .ieee, .zero => (signBit f neg + maxBits f, true)
        | .ieee, _ => (signBit f neg + (2 ^ f.ew - 1) * 2 ^ f.fw, false)
        | _, _ => (signBit f neg + maxBits f, true)

/-- A value rounded to an integer before any limit: ties away from zero (R49). -/
def roundToInt (r : Round) (x : XR) : Int :=
  match x with
  | .fin m e d =>
    let q := roundQ r true (m.natAbs * 2 ^ e.toNat) ((d + 1) * 2 ^ (-e).toNat)
    if m < 0 then -(q : Int) else q
  | _ => 0

/-- An integer limited to a range: the value, and whether it was limited. -/
def clampInt (lo hi i : Int) : Int × Bool := if i < lo then (lo, true) else if hi < i then (hi, true) else (i, false)

/-- A value converted to an integer format (R51, R52). -/
def encodeInt (w : Nat) (lo hi : Int) (r : Round) (x : XR) : Nat × Bool :=
  match x with
  | .nan => (0, true)
  | .inf neg => (unsign w (if neg then lo else hi), true)
  | .fin _ _ _ =>
    let (v, s) := clampInt lo hi (roundToInt r x)
    (unsign w v, s)

/-- An MXINT8 element (R49, R51): m × 2^-6, ties to even. A NaN does not count as saturated: R52 counts one in an integer format, and
MXINT8 is a block format (R31). -/
def encodeMxInt (r : Round) (x : XR) : Nat × Bool :=
  match x with
  | .nan => (0, false)
  | .inf neg => (unsign 8 (if neg then -128 else 127), true)
  | .fin m e d =>
    let k := e + 6
    let q := roundQ r false (m.natAbs * 2 ^ k.toNat) ((d + 1) * 2 ^ (-k).toNat)
    let (v, s) := clampInt (-128) 127 (if m < 0 then -(q : Int) else q)
    (unsign 8 v, s)

/-- fp32, the format of rescale entries and records. -/
def f32 : FloatFmt := ⟨8, 23, 127, .ieee⟩

def f64 : FloatFmt := ⟨11, 52, 1023, .ieee⟩

/-- The value a value has in a float format after rounding to nearest. -/
def toF (f : FloatFmt) (x : XR) : XR := decodeFloat f (encodeFloat f .near x).1

/-- A value converted to a format of R31 (R49-R52): element bits and whether it counts as saturated.
An fp32 pair takes h under the rounding and l to nearest (R44); l is 0 where h is not finite (LOG 138). -/
def encodeElem (c : Nat) (r : Round) (x : XR) : Nat × Bool :=
  match floatFmt c with
  | some f => encodeFloat f r x
  | none =>
    match c with
    | 0x0D => encodeMxInt r x
    | 0x11 =>
      let h := encodeFloat f32 r x
      let l := match decodeFloat f32 h.1 with
        | .fin m e d => (encodeFloat f32 .near (x.sub (.fin m e d))).1
        | _ => 0
      (h.1 + 2 ^ 32 * l, h.2)
    | _ =>
      match intRange c with
      | some (lo, hi) => encodeInt (fmtBits c) lo hi r x
      | none => (0, false)

/-- One unit in the last place of a value in a float format (R47, R116). -/
def ulp (f : FloatFmt) (x : XR) : XR :=
  let emin : Int := 1 - f.bias
  let ex := x.log2
  .fin 1 ((if x.isZero || decide (ex < emin) then emin else ex) - f.fw) 0

/-- A pair with |lo| ≤ ½ ulp(hi) in a float format (R39, R42). -/
structure Pair where
  hi : XR
  lo : XR
deriving DecidableEq, Repr

/-- The value of a pair. -/
def Pair.val (p : Pair) : XR :=
  match p.hi with
  | .fin _ _ _ => p.hi.add p.lo
  | x => x

/-- A value as a renormalised pair. -/
def Pair.of (f : FloatFmt) (x : XR) : Pair :=
  let h := toF f x
  match h with
  | .fin _ _ _ => ⟨h, toF f (x.sub h)⟩
  | _ => ⟨h, .zero⟩

/-- A contribution added into a pair (R39, R42), with the overflow rules of R40: an infinite accumulator stays, the
opposite infinity makes it NaN. -/
def Pair.add (f : FloatFmt) (p : Pair) (t : XR) : Pair :=
  match p.hi, t with
  | .nan, _ => p
  | _, .nan => ⟨.nan, .zero⟩
  | .inf a, .inf b => if a = b then p else ⟨.nan, .zero⟩
  | .inf _, _ => p
  | _, .inf b => ⟨.inf b, .zero⟩
  | _, _ => Pair.of f (p.val.add t)

end Sys2Proof.Machine
end

