-- ==== Sys2Proof/Machine/State.lean ====
section
/-! DEFINITION. The state of the module: everything the manual gives it, as plain data. Sparse maps list only what
differs from the reset value of their kind of unit. INVENTORY.md names the rule and the reset value of each piece. -/

namespace Sys2Proof.Machine

/-! ### Status and queue vocabulary -/

/-- Completion status (R295). -/
inductive Status where
  | ok | torn | hostUnreachable | dieLost | xlateFault | convFault | satRerun | preempted | poison
  | windowFault | feature | aborted | illegal | timeout | peerLost
deriving DecidableEq, Repr

/-- Reason of a translation fault (R232). -/
inductive XReason where
  | notValid | perm | malformed | range | walkPoison | closed
deriving DecidableEq, Repr

/-- Reason of a failed object lookup (R259). -/
inductive OReason where
  | range | tablePoison
  | dieLost (dies : BitVec 4)     -- with the dies that the lookup touched
  | unmapped | malformed | denied
deriving DecidableEq, Repr

/-- What an object lookup is for: SYNC_CTXc_FAULT.OP (R259). -/
inductive OOp where
  | signal | wait | arm | remote
deriving DecidableEq, Repr

/-- Reason of a window fault (R234). -/
inductive WReason where
  | disabled | source | range | perm | xlate
deriving DecidableEq, Repr

/-- State of a queue (CMD_SQq_CTL.STATE). -/
inductive QState where
  | disabled | active | draining | error
deriving DecidableEq, Repr

/-- Cause of a queue's ERROR state (CMD_SQq_CTL.ERRCAUSE). -/
inductive QErr where
  | none | torn | tail | ringPoison | ringUnreachable
deriving DecidableEq, Repr

/-- State of a context (R298). -/
inductive CtxState where
  | free | active | draining | preempted
deriving DecidableEq, Repr

/-! ### Fuses, flash, latches -/

/-- The fuse map of an array (CDIEd_Tt_Aa_REPAIR, R55, R56). -/
structure Repair where
  xrow0 : BitVec 8 := 128
  xrow1 : BitVec 8 := 129
  xcol0 : BitVec 8 := 128
  xcol1 : BitVec 8 := 129
  rowsUsed : BitVec 2 := 0
  colsUsed : BitVec 2 := 0
deriving DecidableEq, Repr

/-- The fuses (R397, R412, R413, R408, R406, R55). Dies are numbered 0 H, 1-4 C0-C3. -/
structure Fuses where
  step   : Sparse (BitVec 8)      -- unlisted: B0, 0x10
  feat   : Sparse (BitVec 8)      -- unlisted: 0xFF
  repair : Sparse Repair          -- by module-wide array index
  lcState : Nat
  returns : Nat
  svn     : Nat
  keyRevoked : Bool
  keyDigest0 : BitVec 256        -- SHAKE256-256 digests of the vendor image keys 0 and 1
  keyDigest1 : BitVec 256
  devid   : W64
deriving DecidableEq, Repr

/-- A firmware image slot (R406, R417): its bytes and whether it is marked valid. -/
structure ImageSlot where
  raw   : Mem
  valid : Bool
deriving DecidableEq, Repr

/-- A write accepted for module flash and not yet stored there (R375). -/
inductive FlashStore where
  | d2d (v : BitVec 2)
  | qrole (v : W32)
  | region (s : StackId) (b : Fin 32) (v : BitVec 2)
  | nodeId (v : BitVec 20)
deriving DecidableEq, Repr

/-- An error record (R390). -/
structure RasRec where
  cls   : BitVec 3 := 0
  code  : BitVec 16 := 0
  ctx   : Option CtxId := none
  unit  : BitVec 8 := 0
  count : BitVec 16 := 0
  addr  : W64 := 0
  info  : W64 := 0
  time  : W64 := 0
deriving DecidableEq, Repr

/-- Module flash (R375, R406, R410, R414). -/
structure Flash where
  d2dNext    : BitVec 2
  qroleNext  : W32
  regionNext : Sparse (BitVec 2)   -- key 32 s + b; unlisted: the default of R198
  nodeId     : BitVec 20
  incarn     : BitVec 16
  vendorKey  : List Byte           -- the 68 B vendor image key
  slotA      : ImageSlot
  slotB      : ImageSlot
  stores     : List FlashStore
  lcRecorded : Nat
  nextBlock  : Nat
  keyPresent : Bool
  certPresent : Bool
  logCopy    : List RasRec
deriving DecidableEq, Repr

/-- What the VIN_AUX domain and the FRU EEPROM hold (R347, R348, R361, R386, R431). -/
structure Aux where
  seqFault : Bool
  trip     : BitVec 5            -- bit 0 H, bits 1-4 C0-C3
  cause    : Option Nat          -- reset cause held by the supply sequencer
  fruSeqCause : Nat
  seqNew  : Bool                 -- the recorded sequence fault has not been logged yet
  seqUnack : Bool                -- and is not acknowledged through LASTV
  unknown : Bool                 -- the input monitors are in an unknown state (R423)
  fruTrips : List (Fin 5)
  fruArea : Mem                  -- the operator area of the FRU EEPROM (R431)
deriving DecidableEq, Repr

/-! ### Global block -/

/-- The GLB block and the module's reset state (14, 15, 11 R307). -/
structure Glb where
  d2dNext   : BitVec 2
  d2dActive : BitVec 2
  revHeld   : BitVec 5           -- GLB_DIEx_ID.HELD
  inset     : BitVec 5           -- GLB_DIEx_ID.INSET
  fwMinHub  : BitVec 8
  fwMinComp : BitVec 8
  rstTile   : BitVec 7
  rstCtx    : BitVec 6
  lastCause : BitVec 4
  dieBusy   : BitVec 4
  tileBusy  : Option Nat         -- the tile whose reset runs
  ctxBusy   : Option Nat         -- the context whose reset runs
  warms     : BitVec 16
  exposed   : W64
  devFeat   : BitVec 8           -- the set fixed by R399, bit 6 before the link mode is applied
  drvAccept : BitVec 8
  locked    : Bool
  drvQ      : List (Nat × Nat)   -- started commands that read or write DRV_ACCEPT, queue and command, in their order (R405)
  ready     : Bool
  failed    : Bool               -- no image, or a service held down: HEALTH 0b11
  resetting : Option Nat         -- a cold reset has been started with this cause and has not run
  warmDue   : Bool               -- a warm device reset with cause 0xA is due and has not run (R201)
  hostLost  : Bool
  linkdowns : BitVec 16
  epoch     : W32
  attached  : Bool
  held      : Sparse W32         -- held lower halves by BAR0 offset (R7)
deriving DecidableEq, Repr

/-- A translation held in a TLB (R230): a leaf of `size` bytes. -/
structure TlbEntry where
  ctx  : CtxId
  vbase : Nat
  size : Nat
  pbase : Nat
  r : Bool
  w : Bool
  x : Bool
  coh : Bool
deriving DecidableEq, Repr

/-- An object-table entry held in a cache (R260). -/
structure ObjEntry where
  ctx  : CtxId
  vid  : Nat
  phys : Nat
  sg   : Bool
  wt   : Bool
deriving DecidableEq, Repr

/-- A performance counter (R396). -/
structure Pmc where
  count : BitVec 48 := 0
  event : BitVec 8 := 0
  en    : Bool := false
  ovf   : Bool := false
deriving DecidableEq, Repr

/-- A record of the negative (R415). -/
structure TraceRec where
  cls  : Nat
  time : W64
  data : BitVec 192
deriving DecidableEq, Repr

/-- Where a change of the efficiency point of a die stands (R357). -/
inductive PointPhase where
  | idle
  | rampUp (dest : BitVec 2)       -- raising: VDD_ARR ramps up first
  | clamped (dest : BitVec 2)      -- HOLD set, before the switch
  | switched                     -- after the switch, HOLD still set; the raise ends with HOLD
  | switchedLow                  -- the same on the way down: VDD_ARR ramps down afterwards
  | rampDown
deriving DecidableEq, Repr

/-- A compute die (01 R16-R21, 13 R356-R361, 14 R379-R385, R394, R396, 08 R202, 09 R230, 10 R260). -/
structure Die where
  fenced   : Bool := false
  tripped  : Bool := false       -- fenced at 115 °C and no die reset since (R361)
  held     : Bool := false
  cause    : BitVec 4 := 0
  exposing : Bool := false
  exposeFound : W64 := 0         -- contexts exposed to its last fence, reported when EXPOSING ends
  roles    : BitVec 48 := 0x900095000000   -- profile 0, every module working (R18)
  assigned : BitVec 48 := 0x900095000000   -- roles as R18 last assigned them (R17)
  everUp   : Bool := true        -- training completed since the last cold or warm device reset (R17)
  partnerUp : Bool := true
  edgeOk   : Bool := true        -- its partner edge trained with two modules or more (R19)
  loopback : Bool := false
  trainHeld : Bool := false      -- left held for training by a die reset (R379, R385)
  hbMissed : Nat := 0
  tel      : W64 := 0
  trips    : W32 := 0
  clamp    : Bool := false
  hold     : Bool := false
  droops   : BitVec 24 := 0
  lastTile : BitVec 7 := 0
  point    : BitVec 2 := 0
  phase    : PointPhase := .idle
  latched  : Bool := false
  steps    : BitVec 2 := 0       -- points stepped down thermally
  temp     : BitVec 8 := 30
  peak     : BitVec 8 := 30
  ltherm   : BitVec 7 := 64
  coolMs   : Nat := 0            -- milliseconds below 102 °C counted towards the next rise
  lowMs    : Nat := 0            -- milliseconds with L_THERM at 16 or less
  coldMs   : Nat := 0            -- milliseconds below 95 °C while stepped
  withdrawn : BitVec 24 := 0
  nc       : Sparse Bool := []   -- near-cache lines present (PA / 256); true: dirty
  tlb      : List TlbEntry := []
  objs     : List ObjEntry := []
  pmc      : Sparse Pmc := []
  freeze   : Bool := false
  trace    : List TraceRec := []
deriving DecidableEq, Repr

/-- The hub's own clocked state (09 R237, 13 R359, 14 R396, 15 R415). -/
structure Hub where
  tel     : W64
  temp    : BitVec 8
  peak    : BitVec 8
  srvceil : BitVec 3
  coolMs  : Nat
  loopback : Bool
  tlb     : List TlbEntry
  objs    : List ObjEntry
  pmc     : Sparse Pmc
  freeze  : Bool
  trace   : List TraceRec
  wrptr   : W32
deriving DecidableEq, Repr

/-! ### Kernels and tiles -/

/-- A wait by a thread (R177, R267). -/
structure ThreadWait where
  phys  : Nat
  target : W32
  dst   : BitVec 6
  p     : BitVec 3
  timed : Bool
  registered : Bool
deriving DecidableEq, Repr

/-- What a live thread is doing (R131). -/
inductive TState where
  | runnable
  | exited
  | atGroupWide                  -- arrived at a group-wide instruction, not converged (R135)
  | queueFull                    -- converged at one whose queue is full (R68, R112, R190)
  | barG
  | barT (b : Fin 8)
  | waiting (w : ThreadWait)
deriving DecidableEq, Repr

/-- A thread (R131, R141, R155, R156, R159). -/
structure Thread where
  pc    : Nat := 0
  regs  : Sparse W32 := []
  marks : W64 := 0               -- poison mark of each register
  preds : BitVec 8 := 0          -- p0-p6; bit 7 unused, p7 reads as 1
  pmarks : BitVec 8 := 0         -- poison mark of each predicate
  st    : TState := .runnable
  since : Nat := 0               -- when it arrived at its wait, in the tile's count of arrivals (R139)
  busy  : W64 := 0               -- registers of outstanding loads
deriving DecidableEq, Repr

/-- A group resident on a tile: its launch number and threads (R130). -/
structure Group where
  num     : Nat
  threads : List Thread
deriving DecidableEq, Repr

/-- A line of the tile L1 (R142, R144): its 512 B granule, age, bytes and poisoned 32 B bursts. -/
structure L1Line where
  granule : Nat
  age     : BitVec 2
  data    : List Byte
  poison  : List Bool
deriving DecidableEq, Repr

/-- An entry of the merging buffer (R143): its 256 B granule, bytes by offset, poisoned offsets, leaf attribute. -/
structure MergeEntry where
  granule : Nat
  coh     : Bool
  bytes   : Sparse Byte
  poison  : KeySet
deriving DecidableEq, Repr

/-- A load that missed the L1 and waits for its line (R142). -/
structure LoadFill where
  group : Nat
  lane  : Nat
  dst   : BitVec 6
  size  : Nat
  sx    : Bool
  strm  : Bool
  pa    : Nat
  coh   : Bool
  install : Bool                 -- cleared by an invalidation of the L1
deriving DecidableEq, Repr

/-- An object reference with its increment (R181, R257). -/
structure SigRef where
  ref : W64
  inc : W32
deriving DecidableEq, Repr

/-- A region of a matrix descriptor (R183). -/
structure Region where
  base   : Nat
  stride : Nat
  tags   : Nat
  list   : Bool
  tagv   : Bool
  wslot  : Bool
deriving DecidableEq, Repr

/-- A matrix operation as issued (R59, R182). `uid` orders the operations of a tile by issue. -/
structure MxOp where
  uid   : Nat
  kid   : Nat
  m : Nat
  n : Nat
  k : Nat
  df : Nat
  arith : Nat
  rnd : Nat
  acc : Bool
  fmtA : Nat
  fmtB : Nat
  fmtC : Nat
  a : Region
  b : Region
  c : Region
  tbl : Option Nat
  nout : Nat
  outList : Nat
  sideA : Region
  sideB : Region
  sig : Option SigRef
  hits : List (Nat × List (Byte × Bool))   -- writes to the scratchpad since its issue, newest first (R76): offset, what stood there
  held : List (Nat × List (Byte × Bool))   -- its lists and tag arrays as they stood at its issue: offset, bytes with poison
  fmts : List Nat                -- formats of the C tiles it has written so far, in the order of its fold (R64)
deriving DecidableEq, Repr

/-- An array of a tile (R57, R58, R68): queued and executing operations. -/
structure ArrayUnit where
  queue : List MxOp := []
  exec  : List MxOp := []
  bistFail : Bool := false
  off   : Bool := false
deriving DecidableEq, Repr

/-- A source of a vector operation (R106, R184). -/
inductive VxSrc where
  | none
  | stream (base : Nat) (fmt : Nat)
  | periodic (base : Nat) (fmt : Nat) (period : Nat)
  | imm (v : W64) (fmt : Nat)
deriving DecidableEq, Repr

/-- A vector operation as issued (R105, R184, R186), and what it has already done. -/
structure VxOp where
  kid   : Nat
  op    : Nat
  count : Nat
  cf    : Nat
  rnd   : Nat
  red   : Nat
  seg   : Nat
  sig   : Option SigRef
  nesterov : Bool
  rnd16 : Nat
  rnd8  : Nat
  src0  : VxSrc
  src1  : VxSrc
  src2  : VxSrc
  dstBase : Nat
  dstFmt : Nat
  dstTag : Option Nat
  dstWslot : Bool
  ruIn  : Nat
  ruOut : Nat
  updW  : Nat
  updW8 : Nat
  w8Fmt : Nat
  w8Present : Bool
  w8Tag : Option Nat
  w8Wslot : Bool
  param : Nat
  ran   : Bool                         -- its elements are written
  recs  : List (Nat × List Byte)       -- RU records to be written: scratchpad offset, bytes
  recPoison : List Nat                 -- offsets of the poisoned ones
  tags  : List (Nat × Nat)             -- tags to be written: offset, tag word
  hits  : List (Nat × Nat)             -- ranges of the scratchpad written since its issue (R112, R76)
deriving DecidableEq, Repr

/-- Which DMA operation (R188, R189). -/
inductive DxKind where
  | copy | fill | red
deriving DecidableEq, Repr

/-- A DX operation as issued (R187). -/
structure DxOp where
  kid  : Nat
  kind : DxKind
  src  : W64
  dst  : W64
  ssp  : Bool
  dsp  : Bool
  redOp : Nat
  redFmt : Nat
  len0 : Nat
  count1 : Nat
  count2 : Nat
  sstr1 : Int
  sstr2 : Int
  dstr1 : Int
  dstr2 : Int
  sig  : Option SigRef
  running : Bool
deriving DecidableEq, Repr

/-- The issue counts of R132, and the set that co-issues with the one that has just issued: its group and PC. -/
structure Sched where
  starve : Sparse Nat := []       -- by group: tile cycles in which it was ready and issued nothing
  skip   : Sparse Nat := []       -- by 64 × group + lane: issues of its group that left the runnable thread out
  next   : Option (Nat × Nat) := none
deriving DecidableEq, Repr

/-- A group-wide instruction stalled on a full queue (R68, R112, R190): its group, PC and opcode, its descriptor as copied at issue
(R179), and the array that an MX.RUN has chosen. -/
structure WideHold where
  group : Nat
  pc    : Nat
  opc   : Nat
  desc  : List Byte
  arr   : Nat
deriving DecidableEq, Repr

/-- The kernel a tile runs (R130). -/
structure Run where
  kid      : Nat
  groups   : List Group
  next     : Nat                  -- launch number of the next group to admit
  exited   : Nat                  -- threads that have exited, all groups
  stopped  : Bool                 -- issue stopped by an abort (R140)
  startTel : W64
  icache   : Sparse W64           -- the instruction cache: words fetched, by PC / 8 (R145)
  arrivals : Nat                  -- arrivals at barriers and group-wide instructions so far
  sched    : Sched := {}
  wide     : List WideHold := []
deriving DecidableEq, Repr

/-- A wait record of a tile (R267): threads waiting on one object with one target share it. -/
structure TileWait where
  phys : Nat
  target : W32
deriving DecidableEq, Repr

/-- A tile. -/
structure Tile where
  waiting : List Nat := []        -- kernels in LAUNCH order (R288)
  run     : Option Run := none
  lastCtx : Option Nat := none    -- generation of the context of its last kernel (R301)
  scratch : Mem := []
  spoison : KeySet := []          -- poisoned 8 B words (R388)
  written : BitVec 128 := 0       -- written map (R302)
  l1      : Sparse L1Line := []   -- by line index 0-47
  lfsr    : BitVec 16 := 0xACE1
  merge   : List MergeEntry := []
  fills   : List LoadFill := []
  grain   : Sparse Nat := []      -- draws taken, by context (R53)
  arr0    : ArrayUnit := {}
  arr1    : ArrayUnit := {}
  vx      : List VxOp := []
  dx      : List DxOp := []
  satCount : W32 := 0
  satOver  : BitVec 16 := 0
  satEvent : Bool := false
  tgeFault : W64 := 0
  tlb      : List TlbEntry := []
  waits    : List TileWait := []
deriving DecidableEq, Repr

/-- A kernel from the start of its LAUNCH to its completion (R127, R288, R140). -/
structure Kernel where
  kid     : Nat
  sq      : QId
  uid     : Nat                   -- the LAUNCH command
  ctx     : CtxId
  gen     : Nat                   -- generation of its context
  entry   : W64
  args    : List Byte
  width   : Nat
  nregs   : Nat
  nru     : Bool                  -- L1POL
  ngroup  : Nat
  tiles   : BitVec 96
  todo    : BitVec 96             -- named tiles that have not started it
  live    : BitVec 96             -- tiles running it
  abort   : Option (Status × Nat)
  poison  : Bool
  hostLost : Bool
  drops   : Nat
  reruns  : Nat
  winFault : Option Nat
  peerLost : Option Nat
  remote  : Nat                   -- remote signals not yet answered (R328)
  limit   : Nat
  legacy  : Bool
  rnd     : Nat
deriving DecidableEq, Repr

/-! ### Memory pool -/

/-- An interleave register HBM_Ss_REGIONb (R199). -/
structure RegionReg where
  next    : BitVec 2
  active  : BitVec 2
  refused : Bool
deriving DecidableEq, Repr

/-- A traffic generator (R215). -/
structure Tgen where
  pattern : BitVec 2 := 0
  size    : BitVec 2 := 0
  random  : Bool := false
  mode    : BitVec 2 := 0
  len     : W32 := 0
  running : Bool := false
  stopping : Bool := false       -- STOP written: the run ends after its current unit
  done    : Bool := false
  errors  : BitVec 16 := 0
  first   : BitVec 25 := 0
  firstv  : Bool := false
deriving DecidableEq, Repr

/-- A stack's registers (R210-R216). -/
structure Stack where
  pcFail : W32 := 0
  temp   : BitVec 8 := 30
  ref2x  : Bool := false
  ce     : W32 := 0
  ue     : BitVec 16 := 0
  ceEv   : Bool := false
  ueEv   : Bool := false
  errBurst : BitVec 30 := 0
  errUe  : Bool := false
  errSrc : BitVec 3 := 0
  errValid : Bool := false
  period : BitVec 8 := 0x18
  passPeriod : BitVec 8 := 0x18   -- the PERIOD of the running pass
  agEnable : Bool := true
  passes : BitVec 16 := 0
  agPos  : Nat := 0               -- next 32 B burst of the pass
  agDue  : List Nat := []         -- bursts scheduled for an immediate read
  agUnit : Option Nat := none     -- 256 B unit of such a read, while more of its bursts are due
  recal  : BitVec 16 := 0         -- channels recalibrated since the last of the 64 ms rounds began
  tgen   : Sparse Tgen := []
  wir    : BitVec 8 := 0
  p1500Ch : BitVec 4 := 0
  p1500Len : BitVec 11 := 0
  p1500Busy : Bool := false
  p1500Done : Bool := false
  shift  : Mem := []
deriving DecidableEq, Repr

/-- What replaced the contents of a part of HBM without a write (R199, R215, R216): a generator's run and a repair leave the free values
of their salt, a band change leaves zeros. -/
inductive Ruin where
  | gen (stack pc salt : Nat)
  | repair (stack salt : Nat)
  | fill (band : Nat) (regions : List Nat)
deriving DecidableEq, Repr

/-- The pool: HBM bytes by PA, poisoned bursts by PA / 32, interleave and stack registers. -/
structure Pool where
  hbm    : Mem
  poison : KeySet
  ruins  : List Ruin              -- newest first
  fresh  : KeySet                 -- bytes (PA) written since the newest of these that holds them
  region : Sparse RegionReg       -- key 32 s + b
  change : Sparse (List (BitVec 2))   -- running band changes: the twelve NEXT values checked
  stack  : Sparse Stack
deriving DecidableEq, Repr

/-! ### Translation, cores, objects -/

/-- A receive window (R234, R235). -/
structure Window where
  base : BitVec 36 := 0
  len  : BitVec 28 := 0
  node : BitVec 20 := 0
  any  : Bool := false
  ctx  : BitVec 6 := 0
  w : Bool := false
  r : Bool := false
  sig : Bool := false
  red : Bool := false
  enable : Bool := false
  drain  : Bool := false
  pending : Bool := false
  faults : BitVec 16 := 0
  inflight : Nat := 0             -- requests past step 5 of R234, not yet complete
deriving DecidableEq, Repr

/-- A line copy in a server-core cache (R242): Modified or Shared, with its 64 bytes and poison. -/
structure CLine where
  modified : Bool
  data   : List Byte
  poison : Bool
deriving DecidableEq, Repr

/-- MESI states of the host-line cache (R248). -/
inductive Mesi where
  | m | e | s
deriving DecidableEq, Repr

/-- A line of the host-line cache, with its poison (R388). -/
structure HLine where
  st   : Mesi
  data : List Byte
  poison : Bool
deriving DecidableEq, Repr

/-- What a hart holds beyond what the rows of the table reach (R236, R237): its privilege and virtualisation mode, the registers of its
translations and timers, and the lines of its L1 instruction cache with the bytes that they were filled with. -/
structure Hart where
  priv  : BitVec 2 := 3
  virt  : Bool := false
  satp  : W64 := 0
  vsatp : W64 := 0
  hgatp : W64 := 0
  stimecmp  : W64 := 0
  vstimecmp : W64 := 0
  l1i   : List (Nat × List Byte) := []    -- (PA / 64, bytes), newest first
deriving DecidableEq, Repr

/-- Server cores, their caches and interrupt files (R236-R243, R248, R351). -/
structure Cores where
  harts : Sparse Hart
  l2   : Sparse CLine             -- key core + 48 × line (line = PA / 64)
  l3   : Sparse CLine             -- key line
  resv : Sparse Nat               -- core: line of its LR reservation
  holds : List Nat                -- 256 B units held at their ordering points for an engine write (R245)
  hlc  : Sparse HLine             -- key PA / 64 of a host line
  imsic : Sparse (BitVec 256)     -- key 4 core + file: pending identities
  srvDiv : Sparse (BitVec 3)      -- unlisted: 2
  srvAct : Sparse (BitVec 3)
  srvRamp : List Nat              -- cores whose raise waits for VDD_SRV
deriving DecidableEq, Repr

/-- Who waits on an object (R262, R267). -/
inductive Waiter where
  | tile (t : TileId)
  | queue (q : QId) (uid : Nat)
  | arm (c : CtxId) (a : Fin 8)
  | coll (id : W32)
deriving DecidableEq, Repr

/-- A wait, pending at its home or on its way there (R254). -/
structure Wait where
  phys : Nat
  target : W32
  who  : Waiter
deriving DecidableEq, Repr

/-- A signal on its way to its home (R253): object and increment, and the die that sent it (none: H). -/
structure Signal where
  phys : Nat
  inc  : W32
  src  : Option DieId
deriving DecidableEq, Repr

/-- The sync blocks (10). -/
structure Sync where
  vals : Sparse W32
  waits : List Wait
  sigs  : List Signal
  arrivals : List Wait
  returns : List (Wait × W32)     -- satisfied waits whose return a die in test mode does not carry, with the value (R21)
deriving DecidableEq, Repr

/-! ### Queues, contexts, functions -/

/-- Where a started command stands. -/
inductive CmdPhase where
  | started                       -- took its place; its own row has not run it
  | running                       -- under way (DMA, kernel, wait, collective, save, preemption)
deriving DecidableEq, Repr

/-- A command taken from a ring (R277, R280): its bytes, the HEAD after it, its phase. -/
structure Cmd where
  uid   : Nat
  bytes : List Byte
  head  : W32
  phase : CmdPhase
deriving DecidableEq, Repr

/-- A completion entry waiting to be posted (R281, R283). -/
structure Entry where
  sq     : QId
  status : Status
  opc    : Byte
  seq    : W32
  head   : W32
  detail : W32
  result : W64
  irq    : Bool
  time   : W64
  placed : Bool                   -- it gives its place back when posted
deriving DecidableEq, Repr

/-- A submission queue (R275, R280, R283, R297). -/
structure Sq where
  l       : BitVec 4 := 0
  base    : BitVec 36 := 0
  enable  : Bool := false
  state   : QState := .disabled
  pending : Bool := false
  admin   : Bool := false
  byZoilo : Bool := false         -- the control complex enabled it (R400)
  ctx     : BitVec 6 := 0
  cq      : BitVec 10 := 0
  func    : BitVec 6 := 0
  err     : QErr := .none
  head    : W32 := 0
  nextSeq : W32 := 0
  tail    : W32 := 0
  retries : Option Nat := none    -- n of R280 while a command is being re-read
  fetched : List Cmd := []
  started : List Cmd := []
  places  : Nat := 0
deriving DecidableEq, Repr

/-- A completion queue. -/
structure Cq where
  l       : BitVec 4 := 0
  base    : BitVec 36 := 0
  enable  : Bool := false
  state   : QState := .disabled
  pending : Bool := false
  irqmode : BitVec 2 := 0
  irqall  : Bool := false
  vector  : BitVec 10 := 0
  func    : BitVec 6 := 0
  err     : QErr := .none
  head    : W32 := 0
  tail    : W32 := 0
  ident   : BitVec 8 := 0
  file    : BitVec 36 := 0
  dropped : BitVec 16 := 0
  waiting : List Entry := []      -- the first 64 held on the hub, the rest in the posting area (R283)
deriving DecidableEq, Repr

/-- An arm slot (R264). -/
structure Arm where
  vid    : BitVec 20 := 0
  enable : Bool := false
  fired  : Bool := false
  lost   : Bool := false
  target : W32 := 0
  ident  : BitVec 8 := 0
  file   : BitVec 36 := 0
deriving DecidableEq, Repr

/-- A preemption or resume under way (R299, R300). -/
structure Preempt where
  q   : QId
  uid : Nat
deriving DecidableEq, Repr

/-- A hardware context (R221, R258, R289, R298, R299, R101). -/
structure Ctx where
  state   : CtxState := .free
  pending : Option (QId × Nat) := none      -- the latched CONTEXT_CREATE
  destroy : Option (QId × Nat) := none      -- the CONTEXT_DESTROY under way; none in DRAINING: a function's drain
  wipe    : Bool := false                   -- zero-fill at the end of the destroy: a function-level reset (R377)
  gen     : Nat := 0
  rnd     : BitVec 2 := 0
  legacy  : Bool := false
  func    : BitVec 6 := 0
  satvec  : BitVec 16 := 0
  errvec  : BitVec 16 := 0
  seed    : W64 := 0
  epoch   : W32 := 0
  rootV   : Bool := false
  safelight : Bool := false
  root    : BitVec 36 := 0
  fault   : W64 := 0
  objV    : Bool := false
  objSize : BitVec 5 := 0
  objBase : BitVec 36 := 0
  objFault : W64 := 0
  arms    : Sparse Arm := []
  limit   : BitVec 15 := 16
  satLegacy : Bool := false
  preMask : BitVec 96 := 0
  preSave : Nat := 0
  preempt : Option Preempt := none
  resetWaits : Bool := false                -- a context reset waits for the preemption (R378)
deriving DecidableEq, Repr

/-- An MSI-X table entry (R273, R306). -/
structure Msix where
  addr : W64 := 0
  data : W32 := 0
  mask : Bool := true
deriving DecidableEq, Repr

/-- The configuration space of a function beyond the masks of `Pcie` (R272, R303); its codes are those of PCI Express 6.0 (LOG 153). -/
structure FuncCfg where
  bar0 : W64 := 0
  bar2 : W64 := 0
  size : Fin 10 := 9              -- PF0's BAR2 is 2^size GiB
  vfBar : W64 := 0
  mps  : BitVec 3 := 0            -- Max Payload Size, 128 B * 2^code
  mrrs : BitVec 3 := 2            -- Max Read Request Size, 128 B * 2^code
  cto  : BitVec 4 := 5            -- completion timeout range: B, 16 to 55 ms
  ctoOff : Bool := false
  aerMask : W32 := 0x400000
  aerSev : W32 := 0x462030
  aerCor : W32 := 0xE000
  aerUncSt : W32 := 0             -- uncorrectable error status
  ecrcGen : Bool := false
  ecrcChk : Bool := false
deriving DecidableEq, Repr

/-- The PCIe/CXL controller and configuration space (R298, R303-R307). -/
structure Pcie where
  linkUp : Bool
  cxl    : Bool
  perst  : Bool                   -- PERST_N is low
  bme    : BitVec 34
  d3     : BitVec 34
  failed : BitVec 34              -- the function's last request ended in a timeout, UR or CA
  vfEnable : Bool
  numVfs : Nat
  drain  : BitVec 34              -- CMD_FUNCf_STATE reads DRAINING
  pend   : BitVec 34              -- PENDING
  flr    : BitVec 34              -- a function-level reset of the function runs (R377)
  pendFlr : BitVec 34             -- a function-level reset is latched behind its drain (R298)
  msix   : Sparse Msix            -- key: first vector of the function + vector
  pba    : KeySet
  cfg    : Sparse FuncCfg          -- by function; VFs have none of their own
deriving DecidableEq, Repr

/-! ### Network, collectives, checkpoints -/

/-- A quad (R313, R327). -/
structure Quad where
  role  : BitVec 2 := 1
  state : BitVec 2 := 0
  lanes : BitVec 4 := 0
  half  : Bool := false
  peerv : Bool := false
  peer  : BitVec 20 := 0
  replays : BitVec 16 := 0
  drops : BitVec 16 := 0
  lseq  : BitVec 12 := 0          -- last LSEQ sent
  ackseq : BitVec 12 := 0         -- last LSEQ received correctly
  acked : BitVec 12 := 0          -- last LSEQ the peer acknowledged
  inRow : Nat := 0                -- replays in a row without progress
  replayBuf : List (Nat × Nat × Frame) := []   -- unacknowledged frames: LSEQ, TYPE, frame
  waitq   : List (Nat × Frame) := []     -- frames (TYPE, frame) waiting for buffer or credits
  credits : List Nat := [256, 1024, 512, 64]  -- 256 B units the peer has free, per class
deriving DecidableEq, Repr

/-- What issued a remote request (R328). -/
inductive NetOwner where
  | kernel (kid : Nat)
  | cmd (q : QId) (uid : Nat)
  | coll (id : W32)
  | ckpt (buddy : Nat)
  | power
  | none
deriving DecidableEq, Repr

/-- An unanswered request (R315, R319). -/
structure NetReq where
  psn   : W32
  typ   : Nat
  frame : Frame
  tries : Nat                     -- retransmissions made
  owner : NetOwner
  held  : Bool                    -- a SIGNAL held behind earlier writes of its class (R318)
deriving DecidableEq, Repr

/-- A peer node: sender and receiver state (R315-R322). -/
structure Peer where
  nextPsn : W32 := 0
  reqs    : List NetReq := []
  win     : Nat := 4096
  grown   : Nat := 0              -- requests answered without ECE since WIN last changed
  halved  : Option W64 := none    -- hub TEL count at the last halving (R322)
  lost    : Bool := false
  heldIncarn : Option (BitVec 16) := none
  oldest  : W32 := 0              -- oldest PSN not yet performed
  done    : List W32 := []        -- performed PSNs at or after it
deriving DecidableEq, Repr

/-- A NIC ring (R326). -/
structure NicRing where
  l : BitVec 4 := 0
  base : BitVec 36 := 0
  enable : Bool := false
  state : QState := .disabled
  bufsz : BitVec 2 := 0
  tail : W32 := 0
  head : W32 := 0
  acc : List Byte := []           -- the buffers of a packet whose last one has not been published
  accSums : Bool := false         -- and its bit 1: checksums are to be inserted
  ident : BitVec 8 := 0
  file : BitVec 36 := 0
deriving DecidableEq, Repr

/-- The network block (12). -/
structure Net where
  qroleNext : W32
  nodeId  : BitVec 20
  nodeLock : Bool
  incarn  : BitVec 16
  port    : BitVec 16
  maxpay  : BitVec 2
  vlanen  : Bool
  vlan    : BitVec 12
  dscp    : BitVec 24
  atValid : Bool
  atSize  : BitVec 5
  atBase  : BitVec 36
  atCache : Sparse (List Byte)     -- cached entries by node
  rto     : BitVec 16
  retries : BitVec 4
  xpeer   : BitVec 20
  quad    : Sparse Quad
  rr      : Nat                    -- round-robin position of the NL choice
  peers   : Sparse Peer
  nicTx   : Sparse NicRing
  nicRx   : Sparse NicRing
  winFault : W64
deriving DecidableEq, Repr

/-- What a running collective waits for (R333). -/
inductive CollWait where
  | ready (target : W32)
  | data (target : W32)
  | answers
deriving DecidableEq, Repr

/-- A collective (R330, R333, R335): its descriptor bytes, position in its schedule and wait. -/
structure Coll where
  q    : QId
  uid  : Nat
  ctx  : CtxId
  id   : W32
  desc : List Byte
  pc   : Nat                       -- next action of its schedule
  wait : Option CollWait
  sent : Nat                       -- bytes sent
  st   : Status × Nat              -- the status met so far, with its DETAIL
deriving DecidableEq, Repr

/-- What a block read of a save has still to do. -/
inductive BlockState where
  | waiting | staged | sent
deriving DecidableEq, Repr

/-- The step a save or restore has reached (R339, R342). -/
inductive SavePhase where
  | clearing                       -- STATE = 0 sent
  | blocks
  | manifest
  | commit
  | readManifests
  | readBlocks
deriving DecidableEq, Repr

/-- One buddy of a save or restore and how it stands. -/
structure Buddy where
  ref : W32
  committed : Bool
  lost : Bool
  refused : Bool
deriving DecidableEq, Repr

/-- A save or restore (R337-R342). -/
structure Save where
  q    : QId
  uid  : Nat
  ctx  : CtxId
  restore : Bool
  desc : List Byte
  gen  : Nat
  phase : SavePhase
  pas  : List (List Nat)           -- physical addresses of the sixteen 4 KiB pieces of each 64 KiB block
  blocks : Sparse BlockState       -- blocks not listed are done with
  staging : Sparse (List Byte)
  copied : Nat                     -- blocks copied ahead
  bad  : Option Status             -- bad source data of a save
  st   : Status × Nat              -- the status met so far
  buddies : List Buddy
  crcs : Sparse W64                -- CRC-64 of each block read; at a restore, the blocks with a poisoned piece
  man0 : List Byte                 -- manifests read by a restore, slots 0 and 1
  man1 : List Byte                 -- while blocks are read: the head of the other buddy's manifest
  manBad : BitVec 2 := 0           -- which of the two arrived poisoned
  buddy : Nat                      -- buddy whose manifest is read
  supplied : BitVec 2
  lost : BitVec 4 := 0             -- dies that reads of blocks have touched while they were fenced
  own  : Bool := false             -- a restore is writing a block
  hits : List (Nat × Nat) := []    -- writes of others to the regions of a running restore: address, length
deriving DecidableEq, Repr

/-- A received request whose write waits at its home (R216, R235, R340): its TYPE and frame, and its window as step 5 of R234 passed
it. -/
structure HeldRx where
  typ  : Nat
  frame : Frame
  win  : Window
deriving DecidableEq, Repr

/-- The sequencer and the checkpoint engine. -/
structure Engines where
  colls  : List Coll
  collQ  : List Coll               -- collectives waiting for one of the eight places
  aborts : List (W32 × BitVec 20)  -- remembered ABORTs: COLL_ID, node named
  save   : Option Save
  saveQ  : List Save
  protect : KeySet                 -- protected 4 KiB pieces by PA / 4,096
  heldRx : List HeldRx             -- in the order of their arrival
  stalled : Bool                   -- an access of the command under way must wait (R216, R340); never set between commands
deriving DecidableEq, Repr

/-! ### Power -/

/-- A grant held or donated (R366-R368). -/
structure GrantRec where
  peer : Nat
  id   : W32
  watts : Nat
  renew : Bool                     -- donated: still renewed each epoch
deriving DecidableEq, Repr

/-- A REPORT received (R366): index, wait, watts, FULL, hub TEL count at arrival. -/
structure ReportRec where
  idx : Nat
  wait : Nat
  watts : Nat
  full : Bool
  time : W64
deriving DecidableEq, Repr

/-- Settings of a power group (R362). -/
structure GroupCfg where
  w   : Nat
  gid : BitVec 16
  members : List (BitVec 20)
  my  : Nat
deriving DecidableEq, Repr

/-- Supplies, clocks, caps and groups (13). -/
structure Pwr where
  auxV   : Bool
  ioV    : Bool
  mainV  : Bool
  off    : Bool                    -- rails turned off by a sequence fault or a hub trip (R348, R361)
  vmain  : BitVec 16
  vio    : BitVec 16
  vaux   : BitVec 12
  lastSeq : BitVec 3
  lastV  : Bool
  uv     : BitVec 16
  cap    : Nat
  window : Nat
  lcap   : BitVec 7
  lcapForced : Bool
  last   : Nat
  avg    : Nat
  unmet  : Bool
  unmetEv : Bool
  excursion : Bool
  excount : BitVec 16
  samples : List Nat               -- the controller's history: p of earlier milliseconds, newest first; unlisted: the effective cap
  raw     : List Nat               -- p as measured, newest first
  overMs    : Nat                    -- milliseconds in a row above 1,800 W
  target : BitVec 2                -- CLK_ARR.TARGET
  refclk : Bool
  pllLost : BitVec 14              -- root 0-4, HBM 5-8, D2D 9-13
  pciePll : Bool
  serdesPll : Bool
  group  : Option GroupCfg
  recv   : List GrantRec
  don    : List GrantRec
  nextId : W32
  reports : List ReportRec
  seen   : List (Nat × W32)        -- grant IDs received, by donor (R367)
  epochTicks : Nat                 -- TEL counts of the running epoch passed while no command waited
  epochBusy : Nat                  -- those in which both conditions of R365 held
  wait   : BitVec 8
  joining : Bool
  leave  : List (QId × Nat)        -- POWER_BUDGET commands waiting for D to reach 0 (R369)
deriving DecidableEq, Repr

/-! ### Control complex, telemetry, debug, pins -/

/-- Routes of a record class (RAS_ROUTEk). -/
structure Route where
  pf0en : Bool := false
  pf0vec : BitVec 10 := 0
  pf1en : Bool := false
  pf1vec : BitVec 6 := 0
  imsicen : Bool := false
  ident : BitVec 8 := 0
  file : BitVec 36 := 0
deriving DecidableEq, Repr

/-- Error records (R390-R392). -/
structure Ras where
  wrptr : W32
  log   : Sparse RasRec
  route : Sparse Route
  history : List RasRec            -- Zoilo's longer history, newest first
deriving DecidableEq, Repr

/-- Control firmware, security and debug (15), pins (16). -/
structure Ctl where
  lcPending : Bool
  nonce   : W64
  version : W32
  slot    : Bool
  digest  : BitVec 512
  feats   : BitVec 8               -- features the running firmware supports
  sigIndex : Option Nat            -- next signature index, once a block is reserved
  restarts : List (Nat × W64)      -- service core and time of each restart
  down    : BitVec 8               -- services held down
  noImage : Bool                   -- the boot ROM found no image to start (R407)
  msgs    : List (Nat × W64)       -- Brynuz requests, by command class, with the hub TEL count at their arrival (R417)
  telSeq  : W32
  telRec  : List W64               -- TEL_REC
  telHist : List (List W64)        -- newest first, 1 ms records
  telSecs : List (Nat × List W64)  -- newest first, one record per second, with the number of its second
  telFill : Nat                    -- records of the running second
  telSecond : Nat                  -- its number
  negClasses : BitVec 8
  negEn   : Bool
  negFreeze : Bool
  negFrozen : Bool
  trigFence : Bool
  trigCont : Bool
  trigDegr : Bool
  spill   : Bool
  spilled : List (List TraceRec)
  modRst  : Bool                   -- MOD_RST_N is held low
  present : Bool                   -- PRSNT_N is low
  tap     : JtagInstr              -- the instruction that the TAP holds
  cells   : Cells                  -- what SAMPLE/PRELOAD shifted into the boundary-scan cells
deriving DecidableEq, Repr

/-- Requests of the host-line cache to the host (R248). -/
inductive CxlReq where
  | rdCurr | rdShared | rdOwn | rdOwnNoData | itoMWr | dirtyEvict | cleanEvict | cleanEvictNoData
deriving DecidableEq, Repr

/-- What leaves the module, and what a server core is told of an access of its own. -/
inductive Emit where
  | cxl (r : CxlReq) (line : Nat) (data : List Byte) (poison : Bool)
  | accessFault (k : CoreId) (pa : Nat)
  | msix (f : FuncId) (addr : W64) (data : W32)
  | frame (quad : QuadId) (data : List Byte)
  | hostRead (data : List Byte) (poison : Bool)
  | snoop (data : List Byte) (dirty poison : Bool)
  | hostWrite (f : FuncId) (addr : Nat) (data : List Byte) (poison relaxed : Bool)
  | hostReq (f : FuncId) (addr n : Nat)
  | aerMessage (f : FuncId) (fatal : Bool)
  | coreTime (k : CoreId) (time : W64)
  | coreTimers (k : CoreId) (s vs : Bool)
  | coreFetch (k : CoreId) (data : List Byte) (poison : Bool)
  | mgmt (cmd code : Nat) (data : List Byte)
  | mctp (data : List Byte)
  | smbus (data : List Byte) (pec : Byte)
  | fru (data : List Byte)
  | nack
  | packet (q : QuadId) (data : List Byte)
  | retryStatus (f : FuncId)
  | configDone (f : FuncId)
  | tap (ir : JtagInstr) (data : W32)
  | scan (cells : Cells)
deriving DecidableEq, Repr

/-- The module. -/
structure State where
  pending : List Instr
  free    : Nat
  out     : List Emit
  worn    : KeySet                -- arrays with a cell fault, 2 × tile + array (R58)
  fuses   : Fuses
  flash   : Flash
  aux     : Aux
  glb     : Glb
  hub     : Hub
  dies    : Sparse Die
  tiles   : Sparse Tile
  kernels : List Kernel
  kidNext : Nat
  pool    : Pool
  cores   : Cores
  windows : Sparse Window
  sync    : Sync
  sqs     : Sparse Sq
  cqs     : Sparse Cq
  ctxs    : Sparse Ctx
  uidNext : Nat
  pcie    : Pcie
  hostMem : Mem
  net     : Net
  eng     : Engines
  pwr     : Pwr
  ras     : Ras
  ctl     : Ctl
deriving DecidableEq, Repr

/-! ### Reasons to stop -/

/-- No step of the model faults: the manual turns every error into an effect on the module (a status, a record,
a fence or a reset), so there is no reason to name. -/
inductive Fault where
deriving DecidableEq, Repr

/-- Reasons a command has no meaning. -/
inductive Refusal where
  /-- Raised by an arm of exec whose row has no meaning yet. Safe. -/
  | notModelled (mnemonic : String)
  /-- Raised by a JTAG instruction that only a debug state permits (R412, R432): the manual does not say what it
  does. Safe: nothing can be proved of what follows. -/
  | jtagDebug
deriving DecidableEq, Repr

/-! ### Reset -/

/-- An interleave register's default (R198): all-12 in bands 0-30, stack-local in band 31. -/
def RegionReg.default (b : Nat) : RegionReg :=
  if b = 31 then ⟨2, 2, false⟩ else ⟨0, 0, false⟩

/-- The image in slot A of State.reset (R406, LOG 5): version 0, steppings as State.reset has them, no body, and in bytes 32 to 95 the
SHAKE256 of no bytes. -/
def resetImage : Mem :=
  [(0, 1), (17, 0x10), (18, 0xFF), (19, 0xFF), (21, 0x10), (22, 0xFF), (23, 0xFF)] ++
  [(32, 0x46), (33, 0xB9), (34, 0xDD), (35, 0x2B), (36, 0x0B), (37, 0xA8), (38, 0x8D), (39, 0x13), (40, 0x23), (41, 0x3B), (42, 0x3F), (43, 0xEB), (44, 0x74), (45, 0x3E), (46, 0xEB), (47, 0x24)] ++
  [(48, 0x3F), (49, 0xCD), (50, 0x52), (51, 0xEA), (52, 0x62), (53, 0xB8), (54, 0x1B), (55, 0x82), (56, 0xB5), (57, 0x0C), (58, 0x27), (59, 0x64), (60, 0x6E), (61, 0xD5), (62, 0x76), (63, 0x2F)] ++
  [(64, 0xD7), (65, 0x5D), (66, 0xC4), (67, 0xDD), (68, 0xD8), (69, 0xC0), (70, 0xF2), (72, 0xCB), (73, 0x05), (74, 0x01), (75, 0x9D), (76, 0x67), (77, 0xB5), (78, 0x92), (79, 0xF6), (80, 0xFC)] ++
  [(81, 0x82), (82, 0x1C), (83, 0x49), (84, 0x47), (85, 0x9A), (86, 0xB4), (87, 0x86), (88, 0x40), (89, 0x29), (90, 0x2E), (91, 0xAC), (92, 0xB3), (93, 0xB7), (94, 0xC4), (95, 0xBE)]

/-- The module at the end of a cold reset after power-up (R374, R375): every register at its Reset value, READY set,
every die up. Fuses, flash and the other values that the manual does not give are DESIGN CHOICE values of
LOG 3, 4, 5, 6, 7 and 8. -/
def State.reset : State where
  pending := []
  free := 0
  out := []
  worn := []
  fuses := { step := [], feat := [], repair := [], lcState := 3, returns := 0, svn := 0,
             keyRevoked := false,
             keyDigest0 := 0xc45867a0178919759aa2ec77aba6949c68503338766727d4e47a351b6868f7df, keyDigest1 := 0, devid := 0 }
  flash := { d2dNext := 0, qroleNext := 0x55555555, regionNext := [], nodeId := 0, incarn := 1, vendorKey := List.replicate 68 0,
             slotA := ⟨resetImage, true⟩,
             slotB := ⟨[], false⟩, stores := [], lcRecorded := 3, nextBlock := 0,
             keyPresent := true, certPresent := true, logCopy := [] }
  aux := { seqFault := false, trip := 0, cause := none, fruSeqCause := 0, seqNew := false, seqUnack := false, unknown := false, fruTrips := [], fruArea := [] }
  glb := { d2dNext := 0, d2dActive := 0, revHeld := 0, inset := 0x1F, fwMinHub := 0, fwMinComp := 0,
           rstTile := 0, rstCtx := 0, lastCause := 0, dieBusy := 0, tileBusy := none, ctxBusy := none,
           warms := 0, exposed := 0, devFeat := 0xFF, drvAccept := 0, locked := false, drvQ := [], ready := true,
           failed := false, resetting := none, warmDue := false, hostLost := false, linkdowns := 0, epoch := 0,
           attached := false, held := [] }
  hub := { tel := 0, temp := 30, peak := 30, srvceil := 2, coolMs := 0, loopback := false, tlb := [], objs := [],
           pmc := [], freeze := false, trace := [], wrptr := 0 }
  dies := []
  tiles := []
  kernels := []
  kidNext := 0
  pool := { hbm := [], poison := [], ruins := [], fresh := [], region := [], change := [], stack := [] }
  cores := { harts := [], l2 := [], l3 := [], resv := [], holds := [], hlc := [], imsic := [], srvDiv := [], srvAct := [],
             srvRamp := [] }
  windows := []
  sync := { vals := [], waits := [], sigs := [], arrivals := [], returns := [] }
  sqs := []
  cqs := []
  ctxs := []
  uidNext := 0
  pcie := { linkUp := true, cxl := false, perst := false, bme := 0, d3 := 0, failed := 0, vfEnable := false,
            numVfs := 0, drain := 0, pend := 0, flr := 0, pendFlr := 0, msix := [], pba := [], cfg := [] }
  hostMem := []
  net := { qroleNext := 0x55555555, nodeId := 0, nodeLock := false, incarn := 1, port := 0x4D0C, maxpay := 2,
           vlanen := false, vlan := 0, dscp := 0, atValid := false, atSize := 0, atBase := 0, atCache := [],
           rto := 0x40, retries := 8, xpeer := 0, quad := [], rr := 0, peers := [], nicTx := [], nicRx := [],
           winFault := 0 }
  eng := { colls := [], collQ := [], aborts := [], save := none, saveQ := [], protect := [], heldRx := [], stalled := false }
  pwr := { auxV := true, ioV := true, mainV := true, off := false, vmain := 54000, vio := 12000, vaux := 3300, lastSeq := 0,
           lastV := false, uv := 0, cap := 1800, window := 4000, lcap := 64, lcapForced := false, last := 0,
           avg := 0, unmet := false, unmetEv := false, excursion := false, excount := 0, samples := [], raw := [], overMs := 0,
           target := 0, refclk := true, pllLost := 0, pciePll := true, serdesPll := true, group := none,
           recv := [], don := [], nextId := 0, reports := [], seen := [], epochTicks := 0, epochBusy := 0, wait := 0, joining := false, leave := [] }
  ras := { wrptr := 0, log := [], route := [], history := [] }
  ctl := { lcPending := false, nonce := Config.nonce 0, version := 0, slot := false,
           digest := 0xbec4b7b3ac2e294086b49a47491c82fcf692b5679d0105cb00f2c0d8ddc45dd72f76d56e64270cb5821bb862ea52cd3f24eb3e74eb3f3b23138da80b2bddb946, feats := 0xFF, sigIndex := none, restarts := [], down := 0, noImage := false, msgs := [],
           telSeq := 0, telRec := [], telHist := [], telSecs := [], telFill := 0, telSecond := 0, negClasses := 0x0F, negEn := true, negFreeze := false,
           negFrozen := false, trigFence := true, trigCont := false, trigDegr := false, spill := true,
           spilled := [], modRst := false, present := true, tap := .idcode, cells := {} }

end Sys2Proof.Machine
end

