-- ==== Sys2Proof/Machine/Ops.lean ====
section
/-! DEFINITION. Reading and changing one unit of each kind: every access to the sparse tables of units goes through
these, so that a unit that equals its reset value is not listed. -/

namespace Sys2Proof.Machine

/-- The compute die Cd. -/
def State.die (s : State) (k : Nat) : Die := Sparse.read {} s.dies k

/-- The state with the compute die Cd replaced. -/
def State.setDie (s : State) (k : Nat) (x : Die) : State := { s with dies := Sparse.write {} s.dies k x }

/-- The state with the compute die Cd changed. -/
def State.modDie (s : State) (k : Nat) (f : Die → Die) : State := s.setDie k (f (s.die k))

/-- The tile Tt. -/
def State.tile (s : State) (k : Nat) : Tile := Sparse.read {} s.tiles k

/-- The state with the tile Tt replaced. -/
def State.setTile (s : State) (k : Nat) (x : Tile) : State := { s with tiles := Sparse.write {} s.tiles k x }

/-- The state with the tile Tt changed. -/
def State.modTile (s : State) (k : Nat) (f : Tile → Tile) : State := s.setTile k (f (s.tile k))

/-- The hardware context c. -/
def State.ctx (s : State) (k : Nat) : Ctx := Sparse.read {} s.ctxs k

/-- The state with the hardware context c replaced. -/
def State.setCtx (s : State) (k : Nat) (x : Ctx) : State := { s with ctxs := Sparse.write {} s.ctxs k x }

/-- The state with the hardware context c changed. -/
def State.modCtx (s : State) (k : Nat) (f : Ctx → Ctx) : State := s.setCtx k (f (s.ctx k))

/-- The submission queue q. -/
def State.sq (s : State) (k : Nat) : Sq := Sparse.read {} s.sqs k

/-- The state with the submission queue q replaced. -/
def State.setSq (s : State) (k : Nat) (x : Sq) : State := { s with sqs := Sparse.write {} s.sqs k x }

/-- The state with the submission queue q changed. -/
def State.modSq (s : State) (k : Nat) (f : Sq → Sq) : State := s.setSq k (f (s.sq k))

/-- The completion queue q. -/
def State.cq (s : State) (k : Nat) : Cq := Sparse.read {} s.cqs k

/-- The state with the completion queue q replaced. -/
def State.setCq (s : State) (k : Nat) (x : Cq) : State := { s with cqs := Sparse.write {} s.cqs k x }

/-- The state with the completion queue q changed. -/
def State.modCq (s : State) (k : Nat) (f : Cq → Cq) : State := s.setCq k (f (s.cq k))

/-- The receive window w. -/
def State.window (s : State) (k : Nat) : Window := Sparse.read {} s.windows k

/-- The state with the receive window w replaced. -/
def State.setWindow (s : State) (k : Nat) (x : Window) : State := { s with windows := Sparse.write {} s.windows k x }

/-- The state with the receive window w changed. -/
def State.modWindow (s : State) (k : Nat) (f : Window → Window) : State := s.setWindow k (f (s.window k))

/-- The stack Ss. -/
def State.stack (s : State) (k : Nat) : Stack := Sparse.read {} s.pool.stack k

/-- The state with the stack Ss replaced. -/
def State.setStack (s : State) (k : Nat) (x : Stack) : State :=
  { s with pool := { s.pool with stack := Sparse.write {} s.pool.stack k x } }

/-- The state with the stack Ss changed. -/
def State.modStack (s : State) (k : Nat) (f : Stack → Stack) : State := s.setStack k (f (s.stack k))

/-- The quad Qq. -/
def State.quad (s : State) (k : Nat) : Quad := Sparse.read {} s.net.quad k

/-- The state with the quad Qq replaced. -/
def State.setQuad (s : State) (k : Nat) (x : Quad) : State :=
  { s with net := { s.net with quad := Sparse.write {} s.net.quad k x } }

/-- The state with the quad Qq changed. -/
def State.modQuad (s : State) (k : Nat) (f : Quad → Quad) : State := s.setQuad k (f (s.quad k))

/-- The peer node n. -/
def State.peer (s : State) (k : Nat) : Peer := Sparse.read {} s.net.peers k

/-- The state with the peer node n replaced. -/
def State.setPeer (s : State) (k : Nat) (x : Peer) : State :=
  { s with net := { s.net with peers := Sparse.write {} s.net.peers k x } }

/-- The state with the peer node n changed. -/
def State.modPeer (s : State) (k : Nat) (f : Peer → Peer) : State := s.setPeer k (f (s.peer k))

/-- The NIC transmit ring r. -/
def State.nicTx (s : State) (k : Nat) : NicRing := Sparse.read {} s.net.nicTx k

/-- The state with the NIC transmit ring r replaced. -/
def State.setNicTx (s : State) (k : Nat) (x : NicRing) : State :=
  { s with net := { s.net with nicTx := Sparse.write {} s.net.nicTx k x } }

/-- The state with the NIC transmit ring r changed. -/
def State.modNicTx (s : State) (k : Nat) (f : NicRing → NicRing) : State := s.setNicTx k (f (s.nicTx k))

/-- The NIC receive ring r. -/
def State.nicRx (s : State) (k : Nat) : NicRing := Sparse.read {} s.net.nicRx k

/-- The state with the NIC receive ring r replaced. -/
def State.setNicRx (s : State) (k : Nat) (x : NicRing) : State :=
  { s with net := { s.net with nicRx := Sparse.write {} s.net.nicRx k x } }

/-- The state with the NIC receive ring r changed. -/
def State.modNicRx (s : State) (k : Nat) (f : NicRing → NicRing) : State := s.setNicRx k (f (s.nicRx k))

/-- The kernel with an identity, while it is not complete. -/
def State.kernel? (s : State) (kid : Nat) : Option Kernel := s.kernels.find? (fun k => k.kid == kid)

/-- The state with a kernel's record changed. -/
def State.modKernel (s : State) (kid : Nat) (f : Kernel → Kernel) : State :=
  { s with kernels := s.kernels.map (fun k => if k.kid = kid then f k else k) }

/-- The state changed by each element of a list in turn. -/
def forEach (l : List α) (f : α → State → State) (s : State) : State := l.foldl (fun s a => f a s) s

/-- What leaves the module, appended. -/
def State.emit (s : State) (e : Emit) : State := { s with out := s.out ++ [e] }

/-- The state after a value that the manual leaves open has been taken. -/
def State.took (s : State) : State := { s with free := s.free + 1 }

/-- Whether the module's rails are on (R346, R347, R361). -/
def State.powered (s : State) : Bool := s.pwr.auxV && s.pwr.ioV && s.pwr.mainV && !s.pwr.off

/-- Whether the module runs: powered, clocked and not waiting for a cold reset (R346, R348, R350, R361). -/
def State.live (s : State) : Bool :=
  s.pwr.auxV && s.pwr.ioV && s.pwr.mainV && !s.pwr.off && s.pwr.refclk && s.glb.resetting.isNone

/-- An event of a running module; while the module does not run it comes to nothing (LOG 11). -/
def whenLive (f : State → State) (s : State) : State := if s.live then f s else s

/-- The state with the mark that an access of the command under way must wait set or taken back. -/
def State.waiting (s : State) (b : Bool) : State := { s with eng := { s.eng with stalled := b } }

/-- The state once an access of the command under way has found that it must wait (R216, R340). -/
def State.stall (s : State) : State := s.waiting true

/-- A command that accesses memory: where an access must wait, the command waits and takes effect when it comes again (LOG 144). The mark
stands during the command only. -/
def orWait (f : State → State) (s : State) : State :=
  let t := f (s.waiting false)
  if t.eng.stalled then s else t.waiting s.eng.stalled

/-- A command that accesses memory, of a running module. -/
def whenServed (f : State → State) (s : State) : State := whenLive (orWait f) s

/-- Held lower halves given up by the reset of their registers (R7). -/
def dropHalves (p : Nat → Bool) (s : State) : State := { s with glb := { s.glb with held := Sparse.keep s.glb.held (fun k => !p k) } }

/-- The compute die of a tile (R14). -/
def dieOfTile (t : Nat) : Nat := t / 24

/-- The compute die of a stack (R14). -/
def dieOfStack (st : Nat) : Nat := st / 3

/-- The partner of a compute die (R14). -/
def partner (d : Nat) : Nat := if d % 2 = 0 then d + 1 else d - 1

/-- Whether a die is fenced; a die held in reset counts as fenced (R379). -/
def State.fenced (s : State) (d : Nat) : Bool := (s.die d).fenced || (s.die d).held

/-- Whether a tile is withdrawn (R394). -/
def State.withdrawn (s : State) (t : Nat) : Bool := (s.die (dieOfTile t)).withdrawn.getLsbD (t % 24)

/-- The compute dies by number. -/
def dieList : List Nat := [0, 1, 2, 3]

/-- The tiles of a compute die. -/
def tilesOfDie (d : Nat) : List Nat := (List.range 24).map (fun i => 24 * d + i)

/-- The unit code of RAS records (R390). -/
def unitDie (d : Nat) : Nat := 1 + d
def unitStack (st : Nat) : Nat := 0x10 + st
def unitTile (t : Nat) : Nat := 0x20 + t
def unitCore (k : Nat) : Nat := 0x80 + k
def unitQuad (q : Nat) : Nat := 0xB0 + q
def unitZoilo (z : Nat) : Nat := 0xC0 + z
def unitNone : Nat := 0xFF

/-- INFO of a record that names a requester (R393). -/
def requesterInfo : Requester → Nat
  | .func f => 256 + f.val
  | .tile t => unitTile t.val
  | .core k => unitCore k.val
  | .zoilo z => unitZoilo z.val
  | .quad q => unitQuad q.val
  | .hub => 0

/-- The requester behind a register access (R393). -/
def originReq : Origin → Requester
  | .pf0 => .func 0
  | .pf1 => .func 33
  | .vf n => .func (Fin.ofNat 34 (n.val + 1))
  | .core k _ => .core k
  | .zoilo z => .zoilo z
  | .tile t => .tile t
  | .hub => .hub

end Sys2Proof.Machine
end

