-- ==== Sys2Proof/Machine/Ras.lean ====
section
/-! DEFINITION. Interrupts (R241, R284, R305), the negative (R415) and error records (R389-R393). -/

namespace Sys2Proof.Machine

/-! ### Interrupts -/

/-- Bit of a function mask. -/
def fbit (m : BitVec 34) (f : Nat) : Bool := m.getLsbD f

/-- Whether host memory is unreachable in the name of a function (R305). -/
def State.hostUnreachable (s : State) (f : Nat) : Bool :=
  !s.pcie.linkUp || !fbit s.pcie.bme f || fbit s.pcie.d3 f || fbit s.pcie.failed f

/-- The first MSI-X vector of a function among the module's 2,048 (R274). -/
def msixBase (f : Nat) : Nat := if f = 0 then 0 else if f = 33 then 1024 else 1088 + 30 * (f - 1)

/-- How many MSI-X vectors a function has (R274). -/
def msixCount (f : Nat) : Nat := if f = 0 then 1024 else if f = 33 then 64 else 30

/-- An MSI-X message of a function: discarded while its host memory is unreachable (R305), held in the PBA while the vector
is masked (R284). -/
def sendMsix (f : FuncId) (vec : Nat) (s : State) : State :=
  if vec < msixCount f.val then
    if s.hostUnreachable f.val then s
    else
      let k := msixBase f.val + vec
      let e := Sparse.read {} s.pcie.msix k
      if e.mask then { s with pcie := { s.pcie with pba := KeySet.add s.pcie.pba k } }
      else s.emit (.msix f e.addr e.data)
  else s

/-- PA of register space (R192). -/
def regSpace : Nat := 0x7F0000000000

/-- The interrupt file at a BAR0 offset: its key 4 × core + file (M 0, S 1, guests 2 and 3) (R240). -/
def imsicAt (off : Nat) : Option Nat :=
  if 0x640000 ≤ off ∧ off < 0x670000 then some (4 * ((off - 0x640000) / 0x1000))
  else if 0x670000 ≤ off ∧ off < 0x670000 + 48 * 0x3000 then
    let p := (off - 0x670000) / 0x1000
    some (4 * (p / 3) + 1 + p % 3)
  else none

/-- An identity made pending in an interrupt file (R240): identities 1 to 255. -/
def imsicSet (key ident : Nat) (s : State) : State :=
  if 1 ≤ ident ∧ ident ≤ 255 then
    let cur := Sparse.read (0 : BitVec 256) s.cores.imsic key
    { s with cores := { s.cores with imsic := Sparse.write 0 s.cores.imsic key (setBit cur ident true) } }
  else s

/-- The interrupt file that PA[47:12] names to an interrupt source, by BAR0 offset and key (R241); sources reach S-level and guest files
(R240). -/
def sourceFile (file : BitVec 36) : Option Nat :=
  let pa := file.toNat * 4096
  if regSpace ≤ pa then
    match imsicAt (pa - regSpace) with
    | some k => if k % 4 = 0 then none else some k
    | none => none
  else none

/-! ### The negative -/

/-- Whether the life-cycle state permits test, repair and data capture (R412): BLANK, MANUFACTURE, RETURNED. -/
def State.lcService (s : State) : Bool := s.fuses.lcState == 0 || s.fuses.lcState == 1 || s.fuses.lcState == 4

/-- Records that fit the buffer of a die (R415): 4 MiB on H, 1 MiB on a compute die, 32 B each. -/
def traceCap (x : Nat) : Nat := if x = 0 then 131072 else 32768

/-- A record of a class in the negative of a die (x = 0 H, 1-4 C0-C3), newest first; recorded where the class is chosen, the
negative runs and is not frozen (R415). -/
def trace (x cls : Nat) (data : Nat) (s : State) : State :=
  if s.ctl.negEn && !s.ctl.negFrozen && s.ctl.negClasses.getLsbD cls && (cls != 7 || s.lcService) then
    if x = 0 then
      { s with hub := { s.hub with
          trace := (TraceRec.mk cls s.hub.tel (BitVec.ofNat 192 data) :: s.hub.trace).take (traceCap 0)
          wrptr := s.hub.wrptr + 1 } }
    else s.modDie (x - 1) (fun d =>
      { d with trace := (TraceRec.mk cls d.tel (BitVec.ofNat 192 data) :: d.trace).take (traceCap x) })
  else s

/-- A transfer as a data-capture record (R415): which transfers are selected is a free choice, taken only while the class is recorded. -/
def capture (x addr : Nat) (data : List Byte) (s : State) : State :=
  if s.ctl.negEn && !s.ctl.negFrozen && s.ctl.negClasses.getLsbD 7 && s.lcService then
    if (Config.freeBits s.free 0).getLsbD 0 then trace x 7 (addr + 2 ^ 64 * ofBytes (data.take 16)) s.took else s.took
  else s

/-- The negative frozen, and spilled where SPILL says so (R415). -/
def negFreezeNow (s : State) : State :=
  if s.ctl.negFrozen then s
  else
    let sp := if s.ctl.spill then s.hub.trace :: dieList.map (fun d => (s.die d).trace) else s.ctl.spilled
    { s with ctl := { s.ctl with negFrozen := true, spilled := sp } }

/-! ### Error records -/

/-- The records of R393 that carry a class of R389. -/
inductive RasClass where
  | corrected | deferred | contained | degraded | fence | fatal | access | notice
deriving DecidableEq, Repr

/-- The code of a class. -/
def RasClass.code : RasClass → Nat
  | .corrected => 0 | .deferred => 1 | .contained => 2 | .degraded => 3 | .fence => 4 | .fatal => 5 | .access => 6
  | .notice => 7

/-- A record to be written. -/
structure RasNew where
  cls  : RasClass
  code : Nat
  unit : Nat
  ctx  : Option Nat := none
  addr : Nat := 0
  info : Nat := 0
deriving DecidableEq, Repr

/-- Whether a record is of the kinds that coalesce (R391). -/
def RasNew.coalesces (r : RasNew) : Bool := r.cls == .corrected || r.code == 0x25

/-- The slot of an earlier record into which a new one coalesces (R391): same CODE and UNIT, written less than 1 ms (100,000 TEL
counts) before. -/
def coalesceSlot (r : RasNew) (s : State) : Option Nat :=
  if r.coalesces then
    (List.find? (fun (e : Nat × RasRec) =>
      e.2.code.toNat == r.code && e.2.unit.toNat == r.unit && e.2.count != 0
        && decide ((s.hub.tel - e.2.time).toNat < 100000)) s.ras.log).map (·.1)
  else none

/-- The vectors and the interrupt that a record of a class sends (R392). An interrupt to a file that no source may write is discarded
(R240). -/
def rasRoute (cls : Nat) (s : State) : State :=
  let r := Sparse.read {} s.ras.route cls
  let s := if r.pf0en then sendMsix 0 r.pf0vec.toNat s else s
  let s := if r.pf1en then sendMsix 33 r.pf1vec.toNat s else s
  match (if r.imsicen then sourceFile r.file else none) with
  | some k => imsicSet k r.ident.toNat s
  | none => s

/-- The error vector of a context (R289, R392); a context that is FREE has none. -/
def sendErrvec (c : Nat) (s : State) : State :=
  if (s.ctx c).state = .free then s
  else sendMsix (Fin.ofNat 34 (s.ctx c).func.toNat) (s.ctx c).errvec.toNat s

/-- The trigger of the negative for a class (R415). -/
def negTrigger (cls : RasClass) (s : State) : Bool :=
  (cls == .fence && s.ctl.trigFence) || (cls == .contained && s.ctl.trigCont) || (cls == .degraded && s.ctl.trigDegr)

/-- The page to which the route of a class sends its interrupt where no source may write it (R240). -/
def strayRoute (cls : Nat) (s : State) : Option (BitVec 36) :=
  let r := Sparse.read {} s.ras.route cls
  if r.imsicen && (sourceFile r.file).isNone then some r.file else none

/-- A new error record (R390-R392): written over the oldest of 256, routed, and sent to the context's error vector where it is CONTAINED
or FENCE and names a context. -/
def newRas (r : RasNew) (s : State) : State :=
  let rec' : RasRec :=
    { cls := BitVec.ofNat 3 r.cls.code, code := BitVec.ofNat 16 r.code,
      ctx := r.ctx.map (Fin.ofNat 64), unit := BitVec.ofNat 8 r.unit, count := 1,
      addr := BitVec.ofNat 64 r.addr, info := BitVec.ofNat 64 r.info, time := s.hub.tel }
  let n := s.ras.wrptr.toNat
  let s := { s with ras := { s.ras with
    log := Sparse.write {} s.ras.log (n % 256) rec', wrptr := s.ras.wrptr + 1, history := rec' :: s.ras.history } }
  let s := trace 0 2 (n + 2 ^ 32 * r.code) s
  let s := if negTrigger r.cls s then negFreezeNow s else s
  let s := rasRoute r.cls.code s
  match r.ctx with
  | some c => if r.cls = .contained ∨ r.cls = .fence then sendErrvec c s else s
  | none => s

/-- The record of a refused or malformed register access (R393). -/
def regAccess (off : Nat) (r : Requester) : RasNew :=
  { cls := .access, code := 0x0001, unit := unitNone, addr := off, info := requesterInfo r }

/-- One more event of the record in a slot of the log (R391). -/
def countRas (i : Nat) (s : State) : State :=
  let old := Sparse.read {} s.ras.log i
  { s with ras := { s.ras with
      log := Sparse.write {} s.ras.log i { old with count := satAdd old.count 1 }
      history := s.ras.history.map (fun h => if h = old then { h with count := satAdd h.count 1 } else h) } }

/-- An error record counted into the one it coalesces with, or new. -/
def noteRas (r : RasNew) (s : State) : State :=
  match coalesceSlot r s with
  | some i => countRas i s
  | none => newRas r s

/-- An error record (R390-R392), counted into the one it coalesces with where there is one. The interrupt of a new record to a file that no
source may write is logged (R240); where the interrupt of that record goes to such a file too, it is discarded without another (LOG 147). -/
def logRas (r : RasNew) (s : State) : State :=
  match coalesceSlot r s with
  | some i => countRas i s
  | none =>
    match strayRoute r.cls.code s with
    | some file => noteRas (regAccess (file.toNat * 4096 - regSpace) .hub) (newRas r s)
    | none => newRas r s

/-- REG_ACCESS: a refused or malformed register access (R393). -/
def logReg (off : Nat) (r : Requester) (s : State) : State :=
  logRas (regAccess off r) s

/-- The write of an identity that an interrupt source makes to a file (R241); one that it may not write is discarded and logged (R240). -/
def sendImsic (file : BitVec 36) (ident : Nat) (s : State) : State :=
  match sourceFile file with
  | some k => imsicSet k ident s
  | none => logReg (file.toNat * 4096 - regSpace) .hub s

/-- CLOSED_RANGE (R193). -/
def logClosed (pa : Nat) (r : Requester) (s : State) : State :=
  logRas { cls := .access, code := 0x0002, unit := unitNone, addr := pa, info := requesterInfo r } s

end Sys2Proof.Machine
end

