-- ==== Sys2Proof/Machine/Pool.lean ====
section
/-! DEFINITION. The physical address map (R192), the interleave (R197-R199), performance counting (R396), and reads and
writes of HBM at the home near cache with poison, failed pseudo-channels, changing bands and fenced dies
(R202-R217), and of tile scratchpads (R302, R388). -/

namespace Sys2Proof.Machine

/-! ### Performance counters -/

/-- A counter after `n` events (R396): modulo 2^48, a wrap sets OVF. -/
def Pmc.bump (p : Pmc) (ev n : Nat) : Pmc :=
  if p.en && p.event.toNat == ev then
    let v := p.count.toNat + n
    { p with count := BitVec.ofNat 48 v, ovf := p.ovf || decide (2 ^ 48 ≤ v) }
  else p

/-- `n` events of a kind counted on a die, x = 0 H, 1-4 C0-C3 (R396). -/
def pmcAdd (x ev n : Nat) (s : State) : State :=
  if x = 0 then
    if s.hub.freeze then s
    else { s with hub := { s.hub with pmc := s.hub.pmc.map (fun e => (e.1, e.2.bump ev n)) } }
  else
    s.modDie (x - 1) (fun d => if d.freeze then d else { d with pmc := d.pmc.map (fun e => (e.1, e.2.bump ev n)) })

/-! ### Address map -/

/-- What a physical address names (R192). -/
inductive PaKind where
  | hbm (region : Nat)
  | host (a : Nat)
  | spad (t : Nat) (off : Nat)
  | regs (off : Nat)
  | unassigned
deriving DecidableEq, Repr

/-- The physical address map (R192). -/
def paKind (pa : Nat) : PaKind :=
  if pa < 0x6000000000 then .hbm (pa / 2 ^ 30)
  else if 0x100000000000 ≤ pa ∧ pa < 0x200000000000 then .host (pa - 0x100000000000)
  else if 0x200000000000 ≤ pa ∧ pa < 0x200030000000 then
    .spad ((pa - 0x200000000000) / 0x800000) ((pa - 0x200000000000) % 0x800000)
  else if regSpace ≤ pa ∧ pa < regSpace + 0x4000000 then .regs (pa - regSpace)
  else .unassigned

/-- The regions of the firmware reserve (R201). -/
def isReserve (r : Nat) : Bool := r == 374 || r == 377 || r == 380 || r == 383

/-- Whether an address is HBM visible to software (R192, R201). -/
def hbmVisible (pa : Nat) : Bool :=
  match paKind pa with
  | .hbm r => !isReserve r
  | _ => false

/-- Whether a whole range is HBM visible to software: the regions it runs through are. -/
def hbmVisibleRange (pa n : Nat) : Bool :=
  decide (pa + n ≤ 0x6000000000) &&
    (List.range ((pa + n + 2 ^ 30 - 1) / 2 ^ 30 - pa / 2 ^ 30)).all (fun i => !isReserve (pa / 2 ^ 30 + i))

/-- Whether an address is closed to every requester but the control complex (R193). -/
def paClosed (pa : Nat) : Bool :=
  match paKind pa with
  | .hbm r => isReserve r
  | .unassigned => true
  | _ => false

/-- Whether a region register is of the firmware reserve (R199 RSV). -/
def regionRsv (st b : Nat) : Bool := isReserve (12 * b + st)

/-- The interleave register of stack s and band b; RSV registers read stack-local (R199). -/
def State.region (s : State) (st b : Nat) : RegionReg :=
  Sparse.read (RegionReg.default b) s.pool.region (32 * st + b)

/-- The interleave register replaced. -/
def State.setRegion (s : State) (st b : Nat) (r : RegionReg) : State :=
  { s with pool := { s.pool with region := Sparse.write (RegionReg.default b) s.pool.region (32 * st + b) r } }

/-- The home stack and stack address of an HBM address (R197). -/
def State.home (s : State) (pa : Nat) : Nat × Nat :=
  let r := pa / 2 ^ 30
  let b := r / 12
  let h := r % 12
  let o := pa % 2 ^ 30
  let st := o / 2048
  let u := o % 2048
  match (s.region h b).active.toNat with
  | 0 => let t := h * 2 ^ 19 + st; (t % 12, b * 2 ^ 30 + t / 12 * 2048 + u)
  | 1 => let t := h % 3 * 2 ^ 19 + st; (3 * (h / 3) + t % 3, b * 2 ^ 30 + t / 3 * 2048 + u)
  | _ => (h, b * 2 ^ 30 + o)

/-- The pseudo-channel of a stack address (R195). -/
def pcOf (a : Nat) : Nat := (a / 2048 % 32) ^^^ (a / 65536 % 32)

/-- The HBM address of a stack address under the interleave in force (the inverse of R197). -/
def State.paOfStack (s : State) (st a : Nat) : Nat :=
  let b := a / 2 ^ 30
  let o := a % 2 ^ 30
  let q := o / 2048
  let u := o % 2048
  match (s.region st b).active.toNat with
  | 0 => let t := 12 * q + st; (12 * b + t / 2 ^ 19) * 2 ^ 30 + t % 2 ^ 19 * 2048 + u
  | 1 => let t := 3 * q + st % 3; (12 * b + 3 * (st / 3) + t / 2 ^ 19) * 2 ^ 30 + t % 2 ^ 19 * 2048 + u
  | _ => (12 * b + st) * 2 ^ 30 + o

/-- The regions (0-11) of a band that a change from `act` to `nxt` affects (R199). -/
def affectedRegions (act nxt : List Nat) : List Nat :=
  if act.any (· == 0) || nxt.any (· == 0) then List.range 12
  else (List.range 12).filter (fun h =>
    let t := h / 3
    let loc (l : List Nat) : Bool := l.getD (3 * t) 9 == 1
    (loc act != loc nxt) || (act.getD h 9 != nxt.getD h 9))

/-- The ACTIVE values of a band. -/
def State.bandActive (s : State) (b : Nat) : List Nat := (List.range 12).map (fun h => (s.region h b).active.toNat)

/-- Whether an HBM address lies in an affected region of a band that is changing (R199). -/
def State.bandBusy (s : State) (pa : Nat) : Bool :=
  let r := pa / 2 ^ 30
  match Sparse.find? s.pool.change (r / 12) with
  | none => false
  | some nxt => (affectedRegions (s.bandActive (r / 12)) (nxt.map (·.toNat))).contains (r % 12)

/-! ### Bytes with poison -/

/-- A byte and whether it carries poison. -/
abbrev PB := Byte × Bool

/-- Clean bytes. -/
def clean (bs : List Byte) : List PB := bs.map (fun b => (b, false))

/-- Whether any byte carries poison. -/
def anyPoison (l : List PB) : Bool := l.any (·.2)

/-- The bytes alone. -/
def plain (l : List PB) : List Byte := l.map (·.1)

/-- What an access met: dies lost (R217), host memory unreachable (R305), writes to it dropped. -/
structure Met where
  dies : BitVec 4 := 0
  unreach : Bool := false
  drops : Nat := 0
  poison : Bool := false
deriving DecidableEq, Repr

/-- Both. -/
def Met.and (a b : Met) : Met :=
  ⟨a.dies ||| b.dies, a.unreach || b.unreach, a.drops + b.drops, a.poison || b.poison⟩

/-- The mask of one die. -/
def dieMask (d : Nat) : BitVec 4 := BitVec.ofNat 4 (2 ^ d)

/-- What a read returns. -/
structure ReadRes where
  data : List PB
  met : Met
deriving DecidableEq, Repr

/-- Poisoned bytes of no value. -/
def poisoned (n : Nat) : List PB := List.replicate n (0, true)

/-! ### The near cache -/

/-- Sets of a near cache and its ways (R202): 262,144 lines of 256 B. -/
def ncSets : Nat := 16384
def ncWays : Nat := 16

/-- A line put in its set of a near cache, in place of one that the replacement policy chooses where the set is full (R203, LOG 136). -/
def ncPut (line : Nat) (dirty : Bool) (salt : Nat) (nc : Sparse Bool) : Sparse Bool :=
  let ways := nc.filter (fun e => e.1 % ncSets == line % ncSets)
  let nc := match Sparse.find? nc line with
    | some _ => nc
    | none =>
      if ways.length < ncWays then nc
      else match ways[Config.victim salt % ncWays]? with
        | some e => Sparse.drop nc e.1
        | none => nc
  Sparse.insert nc line dirty

/-- A near cache after an access to one of its lines (R203). -/
def ncAccess (cls : NcClass) (write : Bool) (whole : Bool) (line salt : Nat) (nc : Sparse Bool) : Sparse Bool :=
  match Sparse.find? nc line with
  | some d => Sparse.insert nc line (d || write)
  | none =>
    match cls with
    | .allocating => ncPut line write salt nc
    | .streaming => if write && !whole then ncPut line true salt nc else nc

/-- The state after an access to a line of the near cache of die d, hits and misses counted (R203, R396). -/
def ncTouch (d : Nat) (cls : NcClass) (write whole : Bool) (pa : Nat) (s : State) : State :=
  let line := pa / 256
  let hit := (Sparse.find? (s.die d).nc line).isSome
  let s := s.modDie d (fun x => { x with nc := ncAccess cls write whole line s.free x.nc })
  pmcAdd (1 + d) (if hit then 5 else 6) 1 (if hit then s else s.took)

/-! ### HBM at its home -/

/-- Whether a pseudo-channel is failed (R214). -/
def State.pcFailed (s : State) (st pc : Nat) : Bool := (s.stack st).pcFail.getLsbD pc

/-- The generator of a pseudo-channel. -/
def State.tgen (s : State) (st pc : Nat) : Tgen := Sparse.read {} (s.stack st).tgen pc

/-- Whether a port operation has repaired the row of a 256 B unit (R216): a free choice. -/
def rowRepaired (k pa : Nat) : Bool := (Config.freeBits k (2 ^ 40 + pa / 256)).getLsbD 0

/-- Whether a change of the contents of HBM holds an address. -/
def Ruin.covers (s : State) (pa : Nat) : Ruin → Bool
  | .gen st c _ => let h := s.home pa; h.1 == st && pcOf h.2 == c
  | .repair st k => (s.home pa).1 == st && rowRepaired k pa
  | .fill b l => pa / 2 ^ 30 / 12 == b && l.contains (pa / 2 ^ 30 % 12)

/-- A byte that such a change has left: zero, or a free value. -/
def Ruin.byte (pa : Nat) : Ruin → Byte
  | .gen _ _ k => (Config.freeBits k pa).setWidth 8
  | .repair _ k => (Config.freeBits k pa).setWidth 8
  | .fill _ _ => 0

/-- A change of the contents of HBM noted, which ends what was written before it. -/
def ruin (r : Ruin) (s : State) : State :=
  { s with pool := { s.pool with ruins := r :: s.pool.ruins, fresh := Sparse.keep s.pool.fresh (fun pa => !r.covers s pa) } }

/-- A byte of HBM as its pseudo-channel gives it: while a generator runs, and once destroyed until written, a free value
(R215, R216). -/
def hbmByte (s : State) (g : Tgen) (pa : Nat) : Byte :=
  if g.running then (Config.freeBits s.free pa).setWidth 8
  else match (if KeySet.has s.pool.fresh pa then none else s.pool.ruins.find? (fun r => r.covers s pa)) with
    | none => Mem.byte s.pool.hbm pa
    | some r => r.byte pa

/-- Bytes of HBM in one 256 B unit, with the poison of their bursts. -/
def hbmBytes (s : State) (g : Tgen) (pa : Nat) : Nat → List PB
  | 0 => []
  | n + 1 => (hbmByte s g pa, KeySet.has s.pool.poison (pa / 32)) :: hbmBytes s g (pa + 1) n

/-- BAND_BUSY (R199, R393). -/
def logBandBusy (r : Requester) (write : Bool) (pa : Nat) (s : State) : State :=
  logRas { cls := .contained, code := 0x24, unit := unitNone, addr := pa,
           info := requesterInfo r + (if write then 512 else 0) } s

/-- PC_ACCESS (R214, R393). -/
def logPcAccess (r : Requester) (st a : Nat) (s : State) : State :=
  logRas { cls := .contained, code := 0x25, unit := unitStack st, addr := a,
           info := requesterInfo r + pcOf a * 65536 } s

/-- The compute die of a requester; none on H. -/
def requesterDie : Requester → Option Nat
  | .tile t => some (dieOfTile t.val)
  | _ => none

/-- Whether a die in test mode parts a die (none: H) from a compute die: it carries no traffic for other dies (R21). Partners whose edge
carries traffic meet directly, all others through H (R14, R19). -/
def State.parted (s : State) (a : Option Nat) (d : Nat) : Bool :=
  match a with
  | none => (s.die d).loopback || s.hub.loopback
  | some a =>
    a != d && ((s.die a).loopback || (s.die d).loopback || (s.hub.loopback && (partner a != d || !(s.die a).partnerUp)))

/-- Whether a die in test mode parts a requester from a compute die. -/
def State.cutOff (s : State) (r : Requester) (d : Nat) : Bool := s.parted (requesterDie r) d

/-- How an access to HBM stands at its home: lost with its die (R217), without a path to it (R20, R21), waiting for the stack's port (R216), at a failed pseudo-channel
(R214), in a region that is changing (R199), or served. -/
inductive AtHome where
  | lost (d : Nat)
  | cut
  | waits
  | failed
  | busy
  | served
deriving DecidableEq, Repr

/-- How a requester's access to an address stands at its home. -/
def atHome (r : Requester) (pa : Nat) (s : State) : AtHome :=
  let h := s.home pa
  if s.fenced (dieOfStack h.1) then .lost (dieOfStack h.1)
  else if s.cutOff r (dieOfStack h.1) then .cut
  else if (s.stack h.1).p1500Busy then .waits
  else if s.pcFailed h.1 (pcOf h.2) then .failed
  else if s.bandBusy pa then .busy
  else .served

/-- A read of up to 256 B of one unit of HBM at its home (R204, R209, R214, R217, R199). -/
def hbmRead (r : Requester) (cls : NcClass) (pa n : Nat) (s : State) : ReadRes × State :=
  let (st, a) := s.home pa
  match atHome r pa s with
  | .lost d => (⟨poisoned n, { dies := dieMask d, poison := true }⟩, s)
  | .cut => (⟨poisoned n, { poison := true }⟩, s)
  | .waits => (⟨poisoned n, { poison := true }⟩, s.stall)
  | .failed => (⟨poisoned n, { poison := true }⟩, logPcAccess r st a s)
  | .busy => (⟨poisoned n, { poison := true }⟩, logBandBusy r false pa s)
  | .served =>
    let g := s.tgen st (pcOf a)
    let data := hbmBytes s g pa n
    (⟨data, { poison := anyPoison data }⟩, ncTouch (dieOfStack st) cls false (n == 256) pa (if g.running then s.took else s))

/-- The poison of bursts after a write of bytes from an address on: a burst written whole with clean bytes loses its
poison, one that takes a poisoned byte is poisoned (R209). -/
def burstPoison (pa : Nat) (data : List PB) (ps : KeySet) : KeySet :=
  let n := data.length
  (List.range ((pa + n + 31) / 32 - pa / 32)).foldl (fun ps i =>
    let b := pa / 32 + i
    let lo := 32 * b - pa
    let hi := 32 * b + 32 - pa
    let part := (data.take hi).drop lo
    if anyPoison part then KeySet.add ps b
    else if part.length = 32 then Sparse.drop ps b else ps) ps

/-- Bytes stored in HBM. What a requester stores while the generator of the pseudo-channel runs does not outlive the run (R215). -/
def hbmStore (pa : Nat) (data : List PB) (s : State) : State :=
  let (st, a) := s.home pa
  let keeps := !s.pool.ruins.isEmpty && !(s.tgen st (pcOf a)).running
  { s with pool := { s.pool with
      hbm := Mem.setBytes s.pool.hbm pa (plain data)
      poison := burstPoison pa data s.pool.poison
      fresh := if keeps then KeySet.addRange s.pool.fresh pa data.length else s.pool.fresh } }

/-- One request that writes runs of bytes of one 256 B unit of HBM at its home (R143, R204). -/
def hbmWriteRuns (r : Requester) (cls : NcClass) (runs : List (Nat × List PB)) (s : State) : Met × State :=
  match runs with
  | [] => ({}, s)
  | (pa, _) :: _ =>
    let (st, a) := s.home pa
    match atHome r pa s with
    | .lost d => ({ dies := dieMask d }, s)
    | .cut => ({ poison := true }, s)
    | .waits => ({}, s.stall)
    | .failed => ({ poison := true }, logPcAccess r st a s)
    | .busy => ({ poison := true }, logBandBusy r true pa s)
    | .served =>
      let n := (runs.map (fun e => e.2.length)).sum
      ({}, ncTouch (dieOfStack st) cls true (n == 256) pa (forEach runs (fun e => hbmStore e.1 e.2) s))

/-- A write of up to 256 B of one unit of HBM at its home. -/
def hbmWrite (r : Requester) (cls : NcClass) (pa : Nat) (data : List PB) (s : State) : Met × State := hbmWriteRuns r cls [(pa, data)] s

/-! ### Scratchpads -/

/-- Bytes of a scratchpad with the poison of their 8 B words (R388). -/
def spadBytes (t : Tile) (off : Nat) : Nat → List PB
  | 0 => []
  | n + 1 => (Mem.byte t.scratch off, KeySet.has t.spoison (off / 8)) :: spadBytes t (off + 1) n

/-- The poison of 8 B words after a write: a word written whole with clean bytes loses it (R388). -/
def wordPoison (off : Nat) (data : List PB) (ps : KeySet) : KeySet :=
  let n := data.length
  (List.range ((off + n + 7) / 8 - off / 8)).foldl (fun ps i =>
    let w := off / 8 + i
    let part := (data.take (8 * w + 8 - off)).drop (8 * w - off)
    if anyPoison part then KeySet.add ps w
    else if part.length = 8 then Sparse.drop ps w else ps) ps

/-- A tile with bytes stored in its scratchpad: bytes, poison and the written map (R302). -/
def Tile.spadPut (t : Tile) (off : Nat) (data : List PB) : Tile :=
  if data.length = 0 then t
  else
    let blocks := List.range ((off + data.length - 1) / 65536 - off / 65536 + 1)
    { t with
      scratch := Mem.setBytes t.scratch off (plain data)
      spoison := wordPoison off data t.spoison
      written := blocks.foldl (fun m i => setBit m (off / 65536 + i) true) t.written }

/-- Matrix operations of an array that a write may meet, by a test, with what it writes over (R76). -/
def ArrayUnit.note (a : ArrayUnit) (p : MxOp → Bool) (off : Nat) (old : List PB) : ArrayUnit :=
  let f (o : MxOp) : MxOp := if p o then { o with hits := (off, old) :: o.hits } else o
  { a with queue := a.queue.map f, exec := a.exec.map f }

/-- The write of a range, about to be made, noted in the operations of a tile that have not completed (R76, R112). -/
def Tile.noteWrite (t : Tile) (mx : MxOp → Bool) (vx : Bool) (off n : Nat) : Tile :=
  let old := spadBytes t off n
  { t with
    arr0 := t.arr0.note mx off old
    arr1 := t.arr1.note mx off old
    vx := if vx then t.vx.map (fun o => { o with hits := (off, n) :: o.hits }) else t.vx }

/-- A write to a scratchpad by a thread, DMA, another tile or a core. -/
def Tile.spadStore (t : Tile) (off : Nat) (data : List PB) : Tile :=
  (t.noteWrite (fun _ => true) true off data.length).spadPut off data

/-- A scratchpad cleared to zero: bytes, poison and written map (R302). -/
def Tile.spadClear (t : Tile) : Tile := { t with scratch := [], spoison := [], written := 0 }

/-- A read of a tile's scratchpad through the address map: lost with its die (R217, R380), poisoned without a path to it (R20, R21). -/
def spadRead (r : Requester) (t off n : Nat) (s : State) : ReadRes :=
  if s.fenced (dieOfTile t) then ⟨poisoned n, { dies := dieMask (dieOfTile t), poison := true }⟩
  else if s.cutOff r (dieOfTile t) then ⟨poisoned n, { poison := true }⟩
  else
    let data := spadBytes (s.tile t) off n
    ⟨data, { poison := anyPoison data }⟩

/-- A write of a tile's scratchpad through the address map. -/
def spadWrite (r : Requester) (t off : Nat) (data : List PB) (s : State) : Met × State :=
  if s.fenced (dieOfTile t) then ({ dies := dieMask (dieOfTile t) }, s)
  else if s.cutOff r (dieOfTile t) then ({ poison := true }, s)
  else ({}, s.modTile t (fun x => x.spadStore off data))

/-- A range cut at the boundaries of 256 B units. -/
def pieces (pa n : Nat) : Nat → List (Nat × Nat)
  | 0 => []
  | f + 1 =>
    if n = 0 then []
    else
      let m := min n (256 - pa % 256)
      (pa, m) :: pieces (pa + m) (n - m) f

/-- The 256 B pieces of a range. -/
def unitPieces (pa n : Nat) : List (Nat × Nat) := pieces pa n (n / 256 + 2)

end Sys2Proof.Machine
end

