-- ==== Sys2Proof/Machine/Atomics.lean ====
section
/-! DEFINITION. Word atomics at the near cache (R207, R172) and bulk reductions at the adder banks (R206). -/

namespace Sys2Proof.Machine

/-- The new value of a word atomic on words of `w` bits (R172): `b` is the operand, `c` the compare value. -/
def atomNew (op : AtomOp) (w old c b : Nat) : Nat :=
  match op with
  | .add => (old + b) % 2 ^ w
  | .swap => b % 2 ^ w
  | .cas => if old = c % 2 ^ w then b % 2 ^ w else old
  | .minS => if signed w b < signed w old then b % 2 ^ w else old
  | .maxS => if signed w old < signed w b then b % 2 ^ w else old
  | .minU => if b % 2 ^ w < old then b % 2 ^ w else old
  | .maxU => if old < b % 2 ^ w then b % 2 ^ w else old

/-- The result of a word atomic: the old value, whether it is poisoned, and what the access met. -/
structure AtomRes where
  old : Nat
  met : Met
deriving DecidableEq, Repr

/-- A line that a near cache holds made dirty. -/
def ncDirty (pa : Nat) (s : State) : State :=
  s.modDie (dieOfStack (s.home pa).1) (fun x => { x with nc := Sparse.insert x.nc (pa / 256) true })

/-- A word atomic in the home near cache, one request to its line (R204, R207). On a poisoned burst memory keeps its value
(R209). -/
def atomAt (r : Requester) (op : AtomOp) (wide : Bool) (pa c b : Nat) (s : State) : AtomRes × State :=
  let n := if wide then 8 else 4
  let res := hbmRead r .allocating pa n s
  let old := ofBytes (plain res.1.data)
  if res.1.met.poison then (⟨old, res.1.met⟩, res.2)
  else
    (⟨old, res.1.met⟩, ncDirty pa (hbmStore pa (clean (toBytes (atomNew op (8 * n) old c b) n)) res.2))

/-- Bytes of an element of a reduction format (R206). -/
def redFmtBytes : RedFmt → Nat
  | .fp32 => 4 | .bf16 => 2 | .fp16 => 2 | .int32 => 4 | .int64 => 8

/-- The reduction formats by the code of RED_FMT (R187). -/
def redFmtOf : Nat → Option RedFmt
  | 0 => some .fp32 | 1 => some .bf16 | 2 => some .fp16 | 3 => some .int32 | 4 => some .int64 | _ => none

/-- The reduction operations by the code of RED_OP (R187). -/
def redOpOf : Nat → Option RedOp
  | 0 => some .add | 1 => some .min | 2 => some .max | _ => none

/-- Whether a format is a float format. -/
def redFmtFloat : RedFmt → Bool
  | .fp32 => true | .bf16 => true | .fp16 => true | .int32 => false | .int64 => false

/-- One element combined by an adder (R206): float addition rounded once to nearest, integer addition modulo 2^w, signed
minimum and maximum. -/
def redElem (op : RedOp) (fmt : RedFmt) (a b : Nat) : Nat :=
  let fl (f : FloatFmt) : Nat := (encodeFloat f .near ((decodeFloat f a).add (decodeFloat f b))).1
  let int (w : Nat) : Nat :=
    match op with
    | .add => (a + b) % 2 ^ w
    | .min => if signed w b < signed w a then b else a
    | .max => if signed w a < signed w b then b else a
  match fmt with
  | .fp32 => fl f32
  | .bf16 => fl ⟨8, 7, 127, .ieee⟩
  | .fp16 => fl ⟨5, 10, 15, .ieee⟩
  | .int32 => int 32
  | .int64 => int 64

/-- Two byte strings combined element by element, `n` elements. -/
def redBytes (op : RedOp) (fmt : RedFmt) (a b : List Byte) : Nat → List Byte
  | 0 => []
  | n + 1 =>
    let k := redFmtBytes fmt
    toBytes (redElem op fmt (ofBytes (a.take k)) (ofBytes (b.take k))) k ++ redBytes op fmt (a.drop k) (b.drop k) n

/-- A line of the near cache given up (R206). -/
def ncDrop (d pa : Nat) (s : State) : State := s.modDie d (fun x => { x with nc := Sparse.drop x.nc (pa / 256) })

/-- A bulk reduction on one 256 B unit (R206, R209): the near cache gives up its copy, the adder combines the unit with the
incoming bytes; a poisoned burst or poisoned data leaves the whole unit poisoned. -/
def reduceAt (r : Requester) (op : RedOp) (fmt : RedFmt) (pa : Nat) (data : List PB) (s : State) : Met × State :=
  let (st, a) := s.home pa
  match atHome r pa s with
  | .lost d => ({ dies := dieMask d, poison := true }, s)
  | .cut => ({ poison := true }, s)
  | .waits => ({}, s.stall)
  | .failed => ({ poison := true }, logPcAccess r st a s)
  | .busy => ({ poison := true }, logBandBusy r true pa s)
  | .served =>
    let s := ncDrop (dieOfStack st) pa s
    let g := s.tgen st (pcOf a)
    let unit := pa / 256 * 256
    let bad := anyPoison (hbmBytes s g unit 256) || anyPoison data
    let cur := hbmBytes s g pa data.length
    let new := redBytes op fmt (plain cur) (plain data) (data.length / redFmtBytes fmt)
    let s := hbmStore pa (clean new) (if g.running then s.took else s)
    let ps := if bad then KeySet.addRange s.pool.poison (unit / 32) 8 else s.pool.poison
    ({ poison := bad }, { s with pool := { s.pool with poison := ps } })

end Sys2Proof.Machine
end

