-- ==== Sys2Proof/Machine/Hash.lean ====
section
/-! DEFINITION. The checks the manual names: CRC-16/CCITT (R278), CRC-32C (R316), CRC-64/XZ (R338) and SHAKE256 (R406). -/

namespace Sys2Proof.Machine

/-- One step of a most-significant-bit-first CRC of width `w`: `k` shifts of the register. -/
def crcMsb (w poly : Nat) (r : Nat) : Nat → Nat
  | 0 => r
  | k + 1 =>
    let t := 2 * r
    crcMsb w poly (if r.testBit (w - 1) then (t ^^^ poly) % 2 ^ w else t % 2 ^ w) k

/-- CRC-16/CCITT of R278: polynomial 0x1021, initial value 0xFFFF, no reflection, no final XOR. -/
def crc16 (bs : List Byte) : Nat :=
  bs.foldl (fun r b => crcMsb 16 0x1021 (r ^^^ (b.toNat * 256)) 8) 0xFFFF

/-- One step of a reflected CRC: `k` shifts of the register. -/
def crcLsb (poly : Nat) (r : Nat) : Nat → Nat
  | 0 => r
  | k + 1 => crcLsb poly (if r % 2 = 1 then (r / 2) ^^^ poly else r / 2) k

/-- A reflected CRC over bytes with a given start and final XOR of all ones. -/
def crcRefl (poly ones : Nat) (bs : List Byte) : Nat :=
  (bs.foldl (fun r b => crcLsb poly (r ^^^ b.toNat) 8) ones) ^^^ ones

/-- CRC-32C (Castagnoli). -/
def crc32c (bs : List Byte) : Nat := crcRefl 0x82F63B78 0xFFFFFFFF bs

/-- CRC-64/XZ. -/
def crc64 (bs : List Byte) : Nat := crcRefl 0xC96C5795D7870F42 0xFFFFFFFFFFFFFFFF bs

/-- A 64-bit word rotated left. -/
def rot64 (x : Nat) (k : Nat) : Nat := (x * 2 ^ k + x / 2 ^ (64 - k)) % 2 ^ 64

/-- A sheet of Keccak lanes: five rows y = 0-4, each of the five lanes x = 0-4. -/
abbrev Lanes := List (List Nat)

/-- The lane at (x, y). -/
def laneAt (s : Lanes) (x y : Nat) : Nat := (s.getD y []).getD x 0

/-- A row turned so that lane x comes to place x − k. -/
def turned (row : List Nat) (k : Nat) : List Nat := row.drop k ++ row.take k

/-- θ: each lane is XORed with the parity of the column to its left and of the one to its right, that one rotated by 1. -/
def stepTheta (s : Lanes) : Lanes :=
  let parity := s.foldl (List.zipWith Nat.xor) (List.replicate 5 0)
  let mix := List.zipWith (fun l r => l ^^^ rot64 r 1) (turned parity 4) (turned parity 1)
  s.map (List.zipWith Nat.xor mix)

/-- The offsets of ρ along the walk from (x, y) by (x, y) → (y, 2x + 3y): step t rotates by the t-th triangular number. -/
def rhoWalk (x y t : Nat) : Nat → List ((Nat × Nat) × Nat)
  | 0 => []
  | n + 1 => ((x, y), t * (t + 1) / 2 % 64) :: rhoWalk y ((2 * x + 3 * y) % 5) (t + 1) n

/-- ρ and π: every lane of the walk is rotated by its offset and moves one step along it; lane (0, 0) stays. -/
def stepRhoPi (s : Lanes) : Lanes :=
  let moved := (rhoWalk 1 0 1 24).map (fun p => ((p.1.2, (2 * p.1.1 + 3 * p.1.2) % 5), rot64 (laneAt s p.1.1 p.1.2) p.2))
  (List.range 5).map (fun y => (List.range 5).map (fun x =>
    match moved.find? (fun q => q.1 == (x, y)) with
    | some q => q.2
    | none => laneAt s 0 0))

/-- χ on one row. -/
def stepChi (row : List Nat) : List Nat :=
  List.zipWith Nat.xor row
    (List.zipWith (fun p q => (2 ^ 64 - 1 - p) &&& q) (turned row 1) (turned row 2))

/-- The register of ι's constants after some steps: 8 bits, x⁸ + x⁶ + x⁵ + x⁴ + 1, from 1. -/
def iotaReg : Nat → Nat
  | 0 => 1
  | t + 1 => let r := 2 * iotaReg t; if 256 ≤ r then r ^^^ 0x171 else r

/-- ι's constant of a round: bit 2^j − 1 is the output of the register at step j + 7 × round. -/
def iotaConst (round : Nat) : Nat :=
  (List.range 7).foldl (fun c j => c + iotaReg (j + 7 * round) % 2 * 2 ^ (2 ^ j - 1)) 0

/-- Rounds of Keccak-f[1600] from a round on. -/
def keccakFrom (s : Lanes) (round : Nat) : Nat → Lanes
  | 0 => s
  | n + 1 =>
    let t := (stepRhoPi (stepTheta s)).map stepChi
    keccakFrom (t.modify 0 (fun row => row.modify 0 (· ^^^ iotaConst round))) (round + 1) n

/-- Keccak-f[1600] on the 25 lanes, lane (x, y) at place x + 5y. -/
def keccakF (a : List Nat) : List Nat :=
  (keccakFrom ((List.range 5).map (fun y => (a.drop (5 * y)).take 5)) 0 24).flatten

/-- Blocks of 136 bytes absorbed, `n` of them. -/
def keccakAbsorb (a : List Nat) (bs : List Byte) : Nat → List Nat
  | 0 => a
  | n + 1 =>
    let a' := keccakF ((List.range 25).map (fun i => a.getD i 0 ^^^ (if i < 17 then leAt bs (8 * i) 8 else 0)))
    keccakAbsorb a' (bs.drop 136) n

/-- SHAKE256 with an output of up to 136 bytes. -/
def shake256 (bs : List Byte) (outLen : Nat) : List Byte :=
  let n := bs.length / 136 + 1
  let padLen := n * 136 - bs.length
  let pad : List Byte :=
    if padLen = 1 then [0x9F] else [0x1F] ++ List.replicate (padLen - 2) 0 ++ [0x80]
  let a := keccakAbsorb (List.replicate 25 0) (bs ++ pad) n
  ((a.map (fun w => toBytes w 8)).flatten).take outLen

end Sys2Proof.Machine
end

