-- ==== Sys2Proof/Machine/Protect.lean ====
section
/-! DEFINITION. Blocks that a running save protects (R340): reading one, holding a write behind one, and the writes and
reductions of HBM that every other layer uses. -/

namespace Sys2Proof.Machine

/-- What a read of several pieces returns. -/
def readPieces (rd : Nat → Nat → State → ReadRes × State) (ps : List (Nat × Nat)) (s : State) : ReadRes × State :=
  ps.foldl (fun (acc : ReadRes × State) p =>
    let r := rd p.1 p.2 acc.2
    (⟨acc.1.data ++ r.1.data, acc.1.met.and r.1.met⟩, r.2)) (⟨[], {}⟩, s)

/-- Places of the staging buffer (R340). -/
def stagingPlaces : Nat := 64

/-- The status of a save for data met by a block read (R341). -/
def badOf (m : Met) : Option Status :=
  if m.dies ≠ 0 then some .dieLost else if m.poison then some .poison else none

/-- The worse of two data statuses: the earlier in the list of R296. -/
def worseBad : Option Status → Option Status → Option Status
  | some .dieLost, _ => some .dieLost
  | _, some .dieLost => some .dieLost
  | some x, _ => some x
  | none, y => y

/-- Whether another block that is still to be read holds a piece of memory. -/
def otherWaits (v : Save) (b pa : Nat) : Bool :=
  (List.range v.pas.length).any (fun j =>
    j != b && Sparse.find? v.blocks j == some .waiting && (v.pas.getD j []).any (fun p => p / 4096 == pa / 4096))

/-- The engine's read of a block into its staging buffer: protection ends, the CRC-64 is computed, bad data is noted (R339-R341).
The engine does not snoop. -/
def ckptReadBlock (b : Nat) (ahead : Bool) (s : State) : State :=
  match s.eng.save with
  | none => s
  | some v =>
    match v.pas[b]? with
    | none => s
    | some ps =>
      let r := readPieces (hbmRead .hub .streaming) (ps.flatMap (fun pa => unitPieces pa 4096)) s
      let bytes := plain r.1.data
      let v' := { v with
        staging := Sparse.insert v.staging b bytes
        blocks := Sparse.insert v.blocks b .staged
        crcs := Sparse.insert v.crcs b (BitVec.ofNat 64 (crc64 bytes))
        bad := worseBad v.bad (badOf r.1.met)
        lost := v.lost ||| r.1.met.dies
        copied := if ahead then v.copied + 1 else v.copied }
      let free := ps.filter (fun pa => !otherWaits v b pa)
      { r.2 with eng := { r.2.eng with
          save := some v'
          protect := free.foldl (fun m pa => Sparse.drop m (pa / 4096)) r.2.eng.protect } }

/-- The first block of the running save that is still to be read and holds an address. -/
def blockIndex (s : State) (pa : Nat) : Option Nat :=
  match s.eng.save with
  | none => none
  | some v =>
    (List.range v.pas.length).find? (fun j =>
      Sparse.find? v.blocks j == some .waiting && (v.pas.getD j []).any (fun p => p / 4096 == pa / 4096))

/-- Whether an address is protected (R340). -/
def isProtected (pa : Nat) (s : State) : Bool := KeySet.has s.eng.protect (pa / 4096)

/-- Whether a write must wait behind a protected block with no place to copy it ahead (R340). -/
def mustHold (pa : Nat) (s : State) : Bool :=
  isProtected pa s && (match s.eng.save with | some v => decide (stagingPlaces ≤ v.staging.length) | none => false)

/-- The blocks that protect an address copied ahead (R340). -/
def copyAheadN (pa : Nat) : Nat → State → State
  | 0, s => s
  | n + 1, s =>
    if isProtected pa s then
      match blockIndex s pa with
      | some b => copyAheadN pa n (ckptReadBlock b true s)
      | none => s
    else s

/-- A protected block about to be written is copied ahead (R340). -/
def copyAhead (pa : Nat) (s : State) : State :=
  copyAheadN pa (match s.eng.save with | some v => v.pas.length | none => 0) s

/-- Whether an address lies in the regions of a running restore, and the writer is not the restore (R342). -/
def restoring (pa : Nat) (s : State) : Bool :=
  match s.eng.save with
  | some v => v.restore && !v.own && v.pas.any (fun l => l.any (fun p => p / 4096 == pa / 4096))
  | none => false

/-- Bytes of HBM that no rule determines: free values. -/
def blur (pa n : Nat) (s : State) : State :=
  ({ s with pool := { s.pool with
      hbm := Mem.setBytes s.pool.hbm pa ((List.range n).map (fun i => (Config.freeBits s.free i).setWidth 8)) } }).took

/-- A write of another engine to the regions of a running restore leaves its bytes unspecified (R342). -/
def restoreMet (pa n : Nat) (s : State) : State :=
  if restoring pa s then
    blur pa n { s with eng := { s.eng with save := s.eng.save.map (fun v => { v with hits := (pa, n) :: v.hits }) } }
  else s

/-- One request that writes runs of bytes of one unit of HBM, behind the protection of a running save (R143, R340). -/
def poolWriteRuns (r : Requester) (cls : NcClass) (runs : List (Nat × List PB)) (s : State) : Met × State :=
  match runs with
  | [] => ({}, s)
  | (pa, _) :: _ =>
    if mustHold pa s then ({}, s.stall)
    else
      let w := hbmWriteRuns r cls runs (copyAhead pa s)
      (w.1, forEach runs (fun e => restoreMet e.1 e.2.length) w.2)

/-- A write of up to 256 B of one unit of HBM, behind the protection of a running save. -/
def poolWrite (r : Requester) (cls : NcClass) (pa : Nat) (data : List PB) (s : State) : Met × State := poolWriteRuns r cls [(pa, data)] s

/-- A bulk reduction on one unit of HBM, behind the protection of a running save. -/
def poolReduce (r : Requester) (op : RedOp) (fmt : RedFmt) (pa : Nat) (data : List PB) (s : State) : Met × State :=
  if mustHold pa s then ({}, s.stall)
  else
    let w := reduceAt r op fmt pa data (copyAhead pa s)
    (w.1, restoreMet pa data.length w.2)

/-- A word atomic on HBM, behind the protection of a running save. -/
def poolAtom (r : Requester) (op : AtomOp) (wide : Bool) (pa c b : Nat) (s : State) : AtomRes × State :=
  if mustHold pa s then (⟨0, { poison := true }⟩, s.stall)
  else
    let x := atomAt r op wide pa c b (copyAhead pa s)
    (x.1, restoreMet pa (if wide then 8 else 4) x.2)

/-- Whether a write to an address must wait at its home (R216, R340). -/
def writeWaits (pa : Nat) (s : State) : Bool := (poolWrite .hub .allocating pa [(0, false)] s).2.eng.stalled

end Sys2Proof.Machine
end

