-- ==== Sys2Proof/Machine/Cores.lean ====
section
/-! DEFINITION. Server-core caches (R242, R243), LR reservations (R239), snoops of the engine port (R244, R245) and the
host-line cache (R248). A line is named by PA / 64. -/

namespace Sys2Proof.Machine

/-- Key of a core's L2 line. -/
def l2Key (k line : Nat) : Nat := k + 48 * line

/-- The copy of a line in a core's L2. -/
def State.l2 (s : State) (k line : Nat) : Option CLine := Sparse.find? s.cores.l2 (l2Key k line)

/-- The copy of a line in the L3. -/
def State.l3 (s : State) (line : Nat) : Option CLine := Sparse.find? s.cores.l3 line

/-- A core's L2 with a line installed. -/
def putL2 (k line : Nat) (c : CLine) (s : State) : State :=
  { s with cores := { s.cores with l2 := Sparse.insert s.cores.l2 (l2Key k line) c } }

/-- A core's L2 without a line. -/
def dropL2 (k line : Nat) (s : State) : State :=
  { s with cores := { s.cores with l2 := Sparse.drop s.cores.l2 (l2Key k line) } }

/-- The L3 with a line installed. -/
def putL3 (line : Nat) (c : CLine) (s : State) : State :=
  { s with cores := { s.cores with l3 := Sparse.insert s.cores.l3 line c } }

/-- The L3 without a line. -/
def dropL3 (line : Nat) (s : State) : State :=
  { s with cores := { s.cores with l3 := Sparse.drop s.cores.l3 line } }

/-- The cores that hold a line. -/
def holders (s : State) (line : Nat) : List Nat := (List.range 48).filter (fun k => (s.l2 k line).isSome)

/-- The Modified copy of a line (R242: at most one), with the core that holds it, or none for the L3's. -/
def ownerOf (s : State) (line : Nat) : Option (Option Nat × CLine) :=
  match (List.range 48).find? (fun k => match s.l2 k line with | some c => c.modified | none => false) with
  | some k => (s.l2 k line).map (fun c => (some k, c))
  | none =>
    match s.l3 line with
    | some c => if c.modified then some (none, c) else none
    | none => none

/-- Any copy of a line's data: the Modified one, else an L3 copy (R243). -/
def cachedData (s : State) (line : Nat) : Option CLine :=
  match ownerOf s line with
  | some (_, c) => some c
  | none => s.l3 line

/-- DIE_ACCESS (R381, R393). -/
def logDieAccess (r : Requester) (pa : Nat) (s : State) : State :=
  logRas { cls := .contained, code := 0x23, unit := unitNone, addr := pa, info := requesterInfo r } s

/-- A line's bytes with its poison. -/
def CLine.pb (c : CLine) : List PB := c.data.map (fun b => (b, c.poison))

/-- The requester of a core's access, or of the L3's. -/
def coreReq (k : Option Nat) : Requester :=
  match k with
  | some k => .core (Fin.ofNat 48 k)
  | none => .hub

/-- The write-back of a line (R243): to the home near cache, where a lost home discards and logs it (R381), or to the
host-line cache for a host line (R248). -/
def writeBack (k : Option Nat) (line : Nat) (c : CLine) (s : State) : State :=
  match paKind (64 * line) with
  | .hbm _ =>
    let w := poolWrite (coreReq k) .allocating (64 * line) c.pb s
    if w.1.dies = 0 then w.2 else logDieAccess (coreReq k) (64 * line) w.2
  | .host _ => { s with cores := { s.cores with hlc := Sparse.insert s.cores.hlc line ⟨.m, c.data, c.poison⟩ } }
  | _ => s

/-- Every copy of a line made Shared. -/
def demote (line : Nat) (s : State) : State :=
  { s with cores := { s.cores with
      l2 := s.cores.l2.map (fun e => if e.1 / 48 = line then (e.1, { e.2 with modified := false }) else e)
      l3 := s.cores.l3.map (fun e => if e.1 = line then (e.1, { e.2 with modified := false }) else e) } }

/-- Every copy of a line in cores other than one made Invalid, with the L3's and the reservations they carried. -/
def invalidateBut (k : Option Nat) (line : Nat) (s : State) : State :=
  { s with cores := { s.cores with
      l2 := Sparse.keep s.cores.l2 (fun key => key / 48 != line || some (key % 48) == k)
      l3 := Sparse.drop s.cores.l3 line
      resv := List.filter (fun e => e.2 != line || some e.1 == k) s.cores.resv } }

/-- Read snoop of one line (R243): a Modified copy is written back and becomes Shared. -/
def snoopReadLine (line : Nat) (s : State) : State :=
  match ownerOf s line with
  | some (k, c) => demote line (writeBack k line c s)
  | none => s

/-- Write snoop of one line (R243): a Modified copy is written back; no core keeps a copy, and a pending SC fails (R239). -/
def snoopWriteLine (line : Nat) (s : State) : State :=
  match ownerOf s line with
  | some (k, c) => invalidateBut none line (writeBack k line c s)
  | none => invalidateBut none line s

/-- The four lines of a 256 B unit. -/
def unitLines (u : Nat) : List Nat := [4 * u, 4 * u + 1, 4 * u + 2, 4 * u + 3]

/-- A read snoop of a 256 B unit (R244, R245). -/
def snoopRead (u : Nat) (s : State) : State := forEach (unitLines u) snoopReadLine (pmcAdd 0 1 1 s)

/-- A write snoop of a 256 B unit (R244, R245). -/
def snoopWrite (u : Nat) (s : State) : State := forEach (unitLines u) snoopWriteLine (pmcAdd 0 1 1 s)

/-- The ordering points release a unit once its engine write is performed (R245). -/
def releaseUnit (u : Nat) (s : State) : State :=
  { s with cores := { s.cores with holds := s.cores.holds.filter (· != u) } }

/-- Whether an ordering point holds a line for an engine write (R245). -/
def lineHeld (s : State) (line : Nat) : Bool := s.cores.holds.contains (line / 4)

/-! ### Host lines -/

/-- Whether FEAT_CXL_CACHE is accepted (R404). -/
def State.cxlAccepted (s : State) : Bool := s.glb.drvAccept.getLsbD 6

/-- HOST_DROP (R305, R393). -/
def logHostDrop (a n : Nat) (s : State) : State :=
  logRas { cls := .contained, code := 0x22, unit := unitNone, addr := a, info := n } s

/-- The host bus address of a host line. -/
def hostLineAddr (line : Nat) : Nat := 64 * line - 0x100000000000

/-- A request of the host-line cache to the host (R248). -/
def cxlReq (r : CxlReq) (line : Nat) (data : List Byte) (poison : Bool) (s : State) : State := s.emit (.cxl r line data poison)

/-- A host line given up by the host-line cache (R248): core copies invalidated first, a Modified copy's data written to
the host, with its poison (R388); which message tells of a clean one is LOG 146. -/
def evictHostLine (line : Nat) (s : State) : State :=
  let s := snoopWriteLine line s
  match Sparse.find? s.cores.hlc line with
  | none => s
  | some h =>
    let s := { s with cores := { s.cores with hlc := Sparse.drop s.cores.hlc line } }
    match h.st with
    | .m => cxlReq .dirtyEvict line h.data h.poison { s with hostMem := Mem.setBytes s.hostMem (hostLineAddr line) h.data }
    | .e => cxlReq .cleanEvict line h.data h.poison s
    | .s => cxlReq .cleanEvictNoData line [] false s

/-- Sets of the host-line cache and its ways (R248): 4 MiB of 64 B lines. -/
def hlcSets : Nat := 4096
def hlcWays : Nat := 16

/-- A host line installed in its set of the host-line cache, in place of another where the set is full (LOG 136). -/
def putHostLine (line : Nat) (h : HLine) (s : State) : State :=
  let ways := s.cores.hlc.filter (fun e => e.1 % hlcSets == line % hlcSets)
  let s :=
    if (Sparse.find? s.cores.hlc line).isNone && decide (hlcWays ≤ ways.length) then
      match ways[Config.victim s.free % hlcWays]? with
      | some e => (evictHostLine e.1 s).took
      | none => s
    else s
  { s with cores := { s.cores with hlc := Sparse.insert s.cores.hlc line h } }

/-- The data of a host line as a coherent reader sees it: the cache's, else host memory (R248). -/
def hostLineData (line : Nat) (s : State) : List Byte :=
  match Sparse.find? s.cores.hlc line with
  | some h => h.data
  | none => Mem.bytes s.hostMem (hostLineAddr line) 64

/-- Whether the host-line cache holds a line poisoned (R388). -/
def hostLinePoison (line : Nat) (s : State) : Bool :=
  match Sparse.find? s.cores.hlc line with
  | some h => h.poison
  | none => false

/-- A host line's rights obtained from the host for a store (R248): RdOwn where the cache lacks it, RdOwnNoData where it shares it, and
ItoMWr for a store of the whole line (LOG 146). -/
def ownRequest (line : Nat) (whole : Bool) (s : State) : State :=
  match Sparse.find? s.cores.hlc line with
  | none => cxlReq (if whole then .itoMWr else .rdOwn) line [] false s
  | some h => if h.st = .s then cxlReq (if whole then .itoMWr else .rdOwnNoData) line [] false s else s

/-- The host-line cache when host memory becomes unreachable (R305): dirty lines dropped and logged, every line and core
copy of a host line invalidated. -/
def dropHostLines (s : State) : State :=
  let dirty := s.cores.hlc.filter (fun e => e.2.st == .m)
  let s := forEach dirty (fun e s => logHostDrop (hostLineAddr e.1) 64 s) s
  let isHost (line : Nat) : Bool := match paKind (64 * line) with | .host _ => true | _ => false
  { s with cores := { s.cores with
      hlc := []
      l2 := Sparse.keep s.cores.l2 (fun key => !isHost (key / 48))
      resv := List.filter (fun e => !isHost e.2) s.cores.resv } }

end Sys2Proof.Machine
end

