-- ==== Sys2Proof/Machine/Mem.lean ====
section
/-! DEFINITION. Engine accesses to memory by physical address: HBM with its snoops (R244-R246), host memory (R248,
R249, R305), scratchpads. An engine's access to register space is of no width that R7 allows, and is discarded and logged;
threads and cores reach it through Machine/RegSpace.lean. -/

namespace Sys2Proof.Machine

/-! ### Host memory -/

/-- The host's own stores since the last command that read host memory (an operand of such commands). -/
def hostStores (hw : List HostByte) (s : State) : State :=
  { s with hostMem := hw.foldl (fun m e => Mem.setByte m e.1 e.2) s.hostMem }

/-- Whether an access through a host leaf finds host memory unreachable: by R305 for its function, or coherent out of CXL mode
(R309). -/
def hostCut (s : State) (fn : Nat) (coh : Bool) : Bool := s.hostUnreachable fn || (coh && !s.pcie.cxl)

/-- Bytes of host memory as a coherent reader sees them. -/
def cohHostBytes (s : State) (a : Nat) : Nat → List PB
  | 0 => []
  | n + 1 =>
    let pa := 0x100000000000 + a
    ((hostLineData (pa / 64) s).getD (pa % 64) 0, hostLinePoison (pa / 64) s) :: cohHostBytes s (a + 1) n

/-- An engine's read of a host line (R248): core copies are snooped; an absent line is asked of the host, and is not kept. -/
def hostLineRead (line : Nat) (s : State) : State :=
  let s := snoopReadLine line s
  if (Sparse.find? s.cores.hlc line).isSome then s else cxlReq .rdCurr line [] false s

/-- The most bytes of a write and of a read request in the name of a function (R303): VFs have the sizes of PF0. -/
def hostLimit (fn : Nat) (s : State) : Nat × Nat :=
  let f := Sparse.read {} s.pcie.cfg (if fn = 33 then 33 else 0)
  (128 * 2 ^ f.mps.toNat, 128 * 2 ^ f.mrrs.toNat)

/-- A range cut into pieces of a size. -/
def cutAt (size a n : Nat) : Nat → List (Nat × Nat)
  | 0 => []
  | f + 1 => if n = 0 then [] else (a, min n size) :: cutAt size (a + size) (n - size) f

/-- A read of host memory (R248, R249, R305), in the name of a function (R271). -/
def hostRead (fn : Nat) (coh : Bool) (a n : Nat) (s : State) : ReadRes × State :=
  if hostCut s fn coh then (⟨poisoned n, { unreach := true, poison := true }⟩, s)
  else if coh then
    let l0 := (0x100000000000 + a) / 64
    let s := forEach ((List.range ((a % 64 + n + 63) / 64)).map (l0 + ·)) hostLineRead s
    let d := cohHostBytes s a n
    (⟨d, { poison := anyPoison d }⟩, s)
  else (⟨clean (Mem.bytes s.hostMem a n), {}⟩,
    forEach (cutAt (hostLimit fn s).2 a n (n / 128 + 1)) (fun p s => s.emit (.hostReq (Fin.ofNat 34 fn) p.1 p.2)) s)

/-- A store of up to 64 B into one host line through the host-line cache (R248); only a store of the whole line clears its poison. -/
def cohHostStore (a : Nat) (data : List PB) (s : State) : State :=
  let line := (0x100000000000 + a) / 64
  let s := ownRequest line (data.length == 64) (snoopWriteLine line s)
  putHostLine line ⟨.m, patch (hostLineData line s) (a % 64) (plain data),
    anyPoison data || (hostLinePoison line s && decide (data.length < 64))⟩ s

/-- A range cut at 64 B lines. -/
def linePieces (a n : Nat) : Nat → List (Nat × Nat)
  | 0 => []
  | f + 1 =>
    if n = 0 then []
    else
      let m := min n (64 - a % 64)
      (a, m) :: linePieces (a + m) (n - m) f

/-- A store of bytes in host memory: line by line through the host-line cache, or straight to the host in the name of a function (R271),
cut at Max Payload Size, with Relaxed Ordering where it is bulk data (R303). -/
def hostStore (fn : Nat) (bulk coh : Bool) (a : Nat) (data : List PB) (s : State) : State :=
  if coh then
    forEach (linePieces a data.length (data.length / 64 + 2)) (fun p s => cohHostStore p.1 ((data.drop (p.1 - a)).take p.2) s) s
  else forEach (cutAt (hostLimit fn s).1 a data.length (data.length / 128 + 1)) (fun p s =>
      let part := (data.drop (p.1 - a)).take p.2
      s.emit (.hostWrite (Fin.ofNat 34 fn) p.1 (plain part) (anyPoison part) bulk))
    { s with hostMem := Mem.setBytes s.hostMem a (plain data) }

/-- One request that writes runs of bytes of host memory, with their poison (R143, R209): dropped and logged while it is unreachable
(R305). -/
def hostWriteRuns (fn : Nat) (bulk coh : Bool) (runs : List (Nat × List PB)) (s : State) : Met × State :=
  match runs.filter (fun e => !e.2.isEmpty) with
  | [] => ({}, s)
  | (a, d) :: l =>
    if hostCut s fn coh then ({ unreach := true, drops := 1 }, logHostDrop a (((a, d) :: l).map (fun e => e.2.length)).sum s)
    else ({}, forEach ((a, d) :: l) (fun e => hostStore fn bulk coh e.1 e.2) s)

/-- One write of a run of bytes of host memory. -/
def hostWrite (fn : Nat) (coh : Bool) (a : Nat) (data : List PB) (s : State) : Met × State := hostWriteRuns fn false coh [(a, data)] s

/-- The last write to host memory that left since an earlier moment, without Relaxed Ordering: the last write of a command (R303). -/
def lastStrict (before : Nat) (s : State) : State :=
  let (l, rest) := (s.out.drop before).reverse.span (fun e => match e with | .hostWrite _ _ _ _ _ => false | _ => true)
  match rest with
  | .hostWrite f a d p _ :: rest =>
    { s with out := s.out.take before ++ rest.reverse ++ [.hostWrite f a d p false] ++ l.reverse }
  | _ => s

/-! ### Engine accesses -/

/-- Who accesses memory, in the name of which function, in which row of R203, and through a leaf with which COH. -/
structure Port where
  req : Requester
  fn  : Nat
  cls : NcClass
  coh : Bool
deriving DecidableEq, Repr

/-- A read of up to 256 B inside one unit. -/
def readPiece (p : Port) (pa n : Nat) (s : State) : ReadRes × State :=
  match paKind pa with
  | .hbm _ => hbmRead p.req p.cls pa n (if p.coh then snoopRead (pa / 256) s else s)
  | .host a => hostRead p.fn p.coh a n s
  | .spad t off => (spadRead p.req t off n s, s)
  | .regs off => (⟨clean (List.replicate n 0), {}⟩, logReg off p.req s)
  | .unassigned => (⟨poisoned n, { poison := true }⟩, s)

/-- One request that writes runs of bytes inside one unit (R143, R204). -/
def writeRuns (p : Port) (runs : List (Nat × List PB)) (s : State) : Met × State :=
  match runs with
  | [] => ({}, s)
  | (pa, data) :: _ =>
    match paKind pa with
    | .hbm _ =>
      let s := if p.coh then snoopWrite (pa / 256) s else s
      let w := poolWriteRuns p.req p.cls runs s
      (w.1, if p.coh then releaseUnit (pa / 256) w.2 else w.2)
    | .host _ => hostWriteRuns p.fn (p.cls == .streaming) p.coh (runs.map (fun e => (e.1 - 0x100000000000, e.2))) s
    | .spad t off => spadWrite p.req t off data s
    | .regs off => ({}, logReg off p.req s)
    | .unassigned => ({}, s)

/-- A write of up to 256 B inside one unit. -/
def writePiece (p : Port) (pa : Nat) (data : List PB) (s : State) : Met × State := writeRuns p [(pa, data)] s

/-- A read of a range of physical addresses, 256 B unit by unit (R204). -/
def memRead (p : Port) (pa n : Nat) (s : State) : ReadRes × State := readPieces (readPiece p) (unitPieces pa n) s

/-- A write of a range of physical addresses, 256 B unit by unit (R204). -/
def memWrite (p : Port) (pa : Nat) (data : List PB) (s : State) : Met × State :=
  (unitPieces pa data.length).foldl (fun (acc : Met × State) q =>
    let w := writePiece p q.1 ((data.drop (q.1 - pa)).take q.2) acc.2
    (acc.1.and w.1, w.2)) ({}, s)

/-- A bulk reduction of a range of HBM, unit by unit (R206, R244). -/
def memReduce (p : Port) (op : RedOp) (fmt : RedFmt) (pa : Nat) (data : List PB) (s : State) : Met × State :=
  (unitPieces pa data.length).foldl (fun (acc : Met × State) q =>
    let s := if p.coh then snoopWrite (q.1 / 256) acc.2 else acc.2
    let w := poolReduce p.req op fmt q.1 ((data.drop (q.1 - pa)).take q.2) s
    (acc.1.and w.1, if p.coh then releaseUnit (q.1 / 256) w.2 else w.2)) ({}, s)

/-- A word atomic on HBM (R207, R244). -/
def memAtom (p : Port) (op : AtomOp) (wide : Bool) (pa c b : Nat) (s : State) : AtomRes × State :=
  let s := if p.coh then snoopWrite (pa / 256) s else s
  let r := poolAtom p.req op wide pa c b s
  (r.1, if p.coh then releaseUnit (pa / 256) r.2 else r.2)

/-- The port of the hub's own coherent accesses: ring reads, walk reads and object-table reads (R227, R259, R280). -/
def hubPort (fn : Nat) : Port := ⟨.hub, fn, .allocating, true⟩

end Sys2Proof.Machine
end

