-- ==== Sys2Proof/Machine/Xlat.lean ====
section
/-! DEFINITION. Translation (R220-R233): page-table walks under device tables and safelight, TLBs, rights, the fault
register; and the lookup of synchronisation objects (R257-R260). -/

namespace Sys2Proof.Machine

/-- Rights an access needs (R225). -/
structure Need where
  r : Bool
  w : Bool
  x : Bool
deriving DecidableEq, Repr

/-- Rights by kind of access (R225); a node-link access needs R or W by its direction. -/
def needOf (k : XKind) (write : Bool) : Need :=
  match k with
  | .load => ⟨true, false, false⟩
  | .store => ⟨false, true, false⟩
  | .atomic => ⟨true, true, false⟩
  | .reduction => ⟨false, true, false⟩
  | .fetch => ⟨false, false, true⟩
  | .dxRead => ⟨true, false, false⟩
  | .dxWrite => ⟨false, true, false⟩
  | .nodeRx => if write then ⟨false, true, false⟩ else ⟨true, false, false⟩

/-- KIND of XLAT_CTXc_FAULT (R232). -/
def kindCode : XKind → Nat
  | .load => 0 | .store => 1 | .atomic => 2 | .reduction => 3 | .fetch => 4 | .dxRead => 5 | .dxWrite => 6 | .nodeRx => 7

/-- REASON of XLAT_CTXc_FAULT (R232). -/
def xreasonCode : XReason → Nat
  | .notValid => 0 | .perm => 1 | .malformed => 2 | .range => 3 | .walkPoison => 4 | .closed => 5

/-- How a walk ends. -/
inductive WalkRes where
  | leaf (size pbase : Nat) (r w x coh : Bool)
  | fault (reason : XReason)
  | lost (dies : BitVec 4)
deriving DecidableEq, Repr

/-- A walk's read of an 8 B entry: through the near cache, snooping the cores (R227). -/
def walkRead (req : Requester) (pa : Nat) (s : State) : (Except WalkRes Nat) × State :=
  let r := memRead ⟨req, 0, .allocating, true⟩ pa 8 s
  (if r.1.met.dies ≠ 0 then .error (.lost r.1.met.dies)
   else if r.1.met.poison then .error (.fault .walkPoison)
   else .ok (ofBytes (plain r.1.data)), r.2)

/-- Size in bytes of a leaf at a level of the device tables (R222). -/
def devLeafSize (level : Nat) : Nat := if level = 0 then 65536 else if level = 1 then 2 ^ 21 else 2 ^ 30

/-- Index of an address at a level of the device tables (R222). -/
def devIndex (va level : Nat) : Nat :=
  match level with
  | 0 => nfld va 20 16
  | 1 => nfld va 29 21
  | 2 => nfld va 38 30
  | _ => nfld va 51 39

/-- Alignment of a table at a level of the device tables (R222). -/
def devTableAlign (level : Nat) : Nat := if level = 0 then 256 else if level = 3 then 65536 else 4096

/-- Whether a device-table entry is well formed at its level (R223, R224): reserved fields zero, LEAF permitted, the next table
in visible HBM and aligned, the page aligned. -/
def devEntryOk (e level : Nat) : Bool :=
  let leaf := nbit e 1
  nfld e 7 6 == 0 && nfld e 55 48 == 0 && !(level == 3 && leaf) && !(level == 0 && !leaf) &&
    (if leaf then nfld e 47 8 * 256 % devLeafSize level == 0
     else
      nfld e 5 2 == 0 && hbmVisible (nfld e 47 8 * 256) && nfld e 47 8 * 256 % devTableAlign (level - 1) == 0)

/-- A walk of the device tables from a level down (R224). -/
def walkDev (req : Requester) (va : Nat) : Nat → Nat → Nat → State → WalkRes × State
  | 0, _, _, s => (.fault .malformed, s)
  | f + 1, level, t, s =>
    let e := walkRead req (t + 8 * devIndex va level) s
    match e.1 with
    | .error w => (w, e.2)
    | .ok e' =>
      if !nbit e' 0 then (.fault .notValid, e.2)
      else if !devEntryOk e' level then (.fault .malformed, e.2)
      else if nbit e' 1 then
        (.leaf (devLeafSize level) (nfld e' 47 8 * 256) (nbit e' 2) (nbit e' 3) (nbit e' 4) (nbit e' 5), e.2)
      else walkDev req va f (level - 1) (nfld e' 47 8 * 256) e.2

/-- Size of a safelight leaf at a level (R233). -/
def slLeafSize (level : Nat) : Nat := 4096 * 512 ^ level

/-- A walk of safelight tables, RISC-V Sv48 with the differences of R233, from a level down. -/
def walkSl (req : Requester) (cxl : Bool) (va : Nat) : Nat → Nat → Nat → State → WalkRes × State
  | 0, _, _, s => (.fault .malformed, s)
  | f + 1, level, t, s =>
    let e := walkRead req (t + 8 * (va / slLeafSize level % 512)) s
    match e.1 with
    | .error w => (w, e.2)
    | .ok p =>
      let pr := nbit p 1
      let pw := nbit p 2
      let px := nbit p 3
      let ppn := nfld p 53 10
      if !nbit p 0 then (.fault .notValid, e.2)
      else if nfld p 60 54 ≠ 0 ∨ (pw ∧ ¬pr) ∨ nfld ppn 43 36 ≠ 0 then (.fault .malformed, e.2)
      else if !pr && !px then
        if level = 0 ∨ nbit p 63 ∨ nbit p 4 ∨ nbit p 6 ∨ nbit p 7 ∨ ¬hbmVisible (ppn * 4096) then
          (.fault .malformed, e.2)
        else walkSl req cxl va f (level - 1) (ppn * 4096) e.2
      else
        let napot := nbit p 63
        if napot ∧ (level ≠ 0 ∨ nfld ppn 3 0 ≠ 8) then (.fault .malformed, e.2)
        else
          let size := if napot then 65536 else slLeafSize level
          let base := if napot then ppn / 16 * 65536 else ppn * 4096
          if base % size ≠ 0 then (.fault .malformed, e.2)
          else if !nbit p 4 || !nbit p 6 then (.fault .perm, e.2)
          else
            -- a 512 GiB leaf is cached as 1 GiB entries
            let sz := if size = 512 * 2 ^ 30 then 2 ^ 30 else size
            let pb := base + va % size / sz * sz
            let coh := match paKind pb with
              | .hbm _ => true
              | .host _ => cxl
              | _ => false
            (.leaf sz pb pr (pw && nbit p 7) px coh, e.2)

/-- A walk of a context's tables for an address (R222, R224, R233); a context without a root has no mapping. -/
def walk (req : Requester) (c : Nat) (va : Nat) (s : State) : WalkRes × State :=
  let x := s.ctx c
  if 2 ^ 52 ≤ va then (.fault .range, s)
  else if x.safelight then
    if 2 ^ 47 ≤ va then (.fault .range, s)
    else if x.rootV then walkSl req s.cxlAccepted va 4 3 (x.root.toNat * 4096) s else (.fault .notValid, s)
  else if x.rootV then walkDev req va 4 3 (x.root.toNat * 4096) s
  else (.fault .notValid, s)

/-! ### TLBs -/

/-- An entry that covers an address of a context. -/
def tlbFind (l : List TlbEntry) (c va : Nat) : Option TlbEntry :=
  l.find? (fun e => e.ctx.val == c && decide (e.vbase ≤ va) && decide (va < e.vbase + e.size))

/-- A TLB with an entry added, within its size (R230). -/
def tlbAdd (cap : Nat) (e : TlbEntry) (l : List TlbEntry) : List TlbEntry :=
  (e :: l.filter (fun x => !(x.ctx == e.ctx && x.vbase == e.vbase && x.size == e.size))).take cap

/-- The TLB entry a requester sees: its tile's, else its die's, or the hub's (R230). -/
def tlbLookup (rq : Requester) (c va : Nat) (s : State) : Option TlbEntry :=
  match rq with
  | .tile t =>
    match tlbFind (s.tile t.val).tlb c va with
    | some e => some e
    | none => tlbFind (s.die (dieOfTile t.val)).tlb c va
  | _ => tlbFind s.hub.tlb c va

/-- The TLBs filled after a walk or a hit in the die's TLB (R230). -/
def tlbFill (rq : Requester) (e : TlbEntry) (s : State) : State :=
  match rq with
  | .tile t =>
    let s := s.modTile t.val (fun x => { x with tlb := tlbAdd 512 e x.tlb })
    s.modDie (dieOfTile t.val) (fun x => { x with tlb := tlbAdd 8192 e x.tlb })
  | _ => { s with hub := { s.hub with tlb := tlbAdd 8192 e s.hub.tlb } }

/-- Every TLB rid of the entries a test names (R231). -/
def tlbPurge (p : TlbEntry → Bool) (s : State) : State :=
  let keep (l : List TlbEntry) : List TlbEntry := l.filter (fun e => !p e)
  { s with
    tiles := Sparse.mapVals {} s.tiles (fun t => { t with tlb := keep t.tlb })
    dies := Sparse.mapVals {} s.dies (fun d => { d with tlb := keep d.tlb })
    hub := { s.hub with tlb := keep s.hub.tlb } }

/-! ### Translation -/

/-- How a translation ends. -/
inductive XRes where
  | ok (pa : Nat) (coh : Bool)
  | fault (reason : XReason)
  | lost (dies : BitVec 4)
deriving DecidableEq, Repr

/-- XLAT_CTXc_FAULT takes the first fault of the context (R232). -/
def recordFault (c va : Nat) (k : XKind) (r : XReason) (s : State) : State :=
  s.modCtx c (fun x =>
    if bit x.fault 63 then x
    else
      let v := va % 2 ^ 52 + xreasonCode r * 2 ^ 52 + kindCode k * 2 ^ 55 + 2 ^ 63
      { x with fault := BitVec.ofNat 64 v })

/-- The rights and the target of a leaf checked (R225, R226). -/
def checkLeaf (e : TlbEntry) (need : Need) (cxl : Bool) (va : Nat) : XRes :=
  let pa := e.pbase + (va - e.vbase)
  let hostCoh := match paKind pa with | .host _ => e.coh | _ => false
  if (need.r && !e.r) || (need.w && !e.w) || (need.x && !e.x) then .fault .perm
  else if hostCoh && !cxl then .fault .malformed
  else if paClosed pa then .fault .closed
  else .ok pa e.coh

/-- A leaf's answer to an access; a closed target is logged (R193). -/
def leafAnswer (rq : Requester) (e : TlbEntry) (need : Need) (va : Nat) (s : State) : XRes × State :=
  let r := checkLeaf e need s.cxlAccepted va
  (r, if r = .fault .closed then logClosed (e.pbase + (va - e.vbase)) rq s else s)

/-- A walk, its leaf checked and the TLBs filled (R224-R226, R230). -/
def walkAndFill (rq : Requester) (c va : Nat) (need : Need) (s : State) : XRes × State :=
  let w := walk rq c va (match rq with | .tile t => pmcAdd (1 + dieOfTile t.val) 8 1 s | _ => s)
  match w.1 with
  | .fault r => (.fault r, w.2)
  | .lost d => (.lost d, w.2)
  | .leaf size pbase r wr x coh =>
    let e : TlbEntry := ⟨Fin.ofNat 64 c, va / size * size, size, pbase, r, wr, x, coh⟩
    let res := leafAnswer rq e need va w.2
    match res.1 with
    | .ok _ _ => (res.1, tlbFill rq e res.2)
    | _ => res

/-- A translation without the record of its fault (R224-R230). -/
def translateRaw (rq : Requester) (c va : Nat) (need : Need) (s : State) : XRes × State :=
  match (if va < 2 ^ 52 then tlbLookup rq c va s else none) with
  | some e => leafAnswer rq e need va (tlbFill rq e s)
  | none => walkAndFill rq c va need s

/-- The record of a translation's fault (R232). -/
def faulted (c va : Nat) (k : XKind) (r : XRes × State) : XRes × State :=
  match r.1 with
  | .fault reason => (r.1, recordFault c va k reason r.2)
  | _ => r

/-- A translation of an engine access for a requester; a fault is recorded (R232), and a closed target logged (R193). -/
def translate (rq : Requester) (c va : Nat) (k : XKind) (write : Bool) (s : State) : XRes × State :=
  faulted c va k (translateRaw rq c va (needOf k write) s)

/-- PAGE_WALK_COMPLETE (R224): a walk ends in a translation, which fills the TLBs, or in a fault, which is recorded. -/
def execPageWalkComplete (w : Walk) (s : State) : Host.Outcome State Fault Refusal :=
  .next (whenServed (fun s =>
    let rq : Requester := match w.tile with | some t => .tile t | none => .hub
    if (match w.tile with | some t => s.fenced (dieOfTile t.val) | none => false) then s
    else (faulted w.ctx.val w.va.toNat w.kind
      (walkAndFill rq w.ctx.val w.va.toNat (needOf w.kind w.write) s)).2) s)

/-- A translated range: pieces inside 4 KiB of virtual address (the smallest page), each with its physical address and COH. -/
structure XPiece where
  off : Nat
  pa  : Nat
  len : Nat
  coh : Bool
deriving DecidableEq, Repr

/-- A range of virtual addresses translated piece by piece, up to the first that fails. -/
def translateRange (rq : Requester) (c : Nat) (k : XKind) (write : Bool) (off va n : Nat) :
    Nat → State → (List XPiece × Option XRes) × State
  | 0, s => (([], none), s)
  | f + 1, s =>
    if n = 0 then (([], none), s)
    else
      let m := min n (4096 - va % 4096)
      let r := translate rq c va k write s
      match r.1 with
      | .ok pa coh =>
        let rest := translateRange rq c k write (off + m) (va + m) (n - m) f r.2
        ((⟨off, pa, m, coh⟩ :: rest.1.1, rest.1.2), rest.2)
      | x => (([], some x), r.2)

/-- A whole range translated. -/
def xlatRange (rq : Requester) (c : Nat) (k : XKind) (write : Bool) (va n : Nat) (s : State) :
    (List XPiece × Option XRes) × State :=
  translateRange rq c k write 0 va n (n / 4096 + 2) s

/-! ### Synchronisation objects -/

/-- REASON of SYNC_CTXc_FAULT (R259). -/
def oreasonCode : OReason → Nat
  | .range => 0 | .tablePoison => 1 | .dieLost _ => 2 | .unmapped => 3 | .malformed => 4 | .denied => 5

/-- OP of SYNC_CTXc_FAULT. -/
def oopCode : OOp → Nat
  | .signal => 0 | .wait => 1 | .arm => 2 | .remote => 3

/-- The home die of a physical object (R256). -/
def dieOfObj (p : Nat) : Nat := p / 4096

/-- Whether an operation needs the wait right. -/
def OOp.isWait : OOp → Bool
  | .signal => false | .wait => true | .arm => true | .remote => false

/-- The rights and the home of an entry (R259): the last two reasons. -/
def objCheck (s : State) (op : OOp) (phys : Nat) (sg wt : Bool) : Except OReason Nat :=
  if s.fenced (dieOfObj phys) then .error (.dieLost (dieMask (dieOfObj phys)))
  else if (if op.isWait then !wt else !sg) then .error .denied
  else .ok phys

/-- The mask of the fenced die that an address is homed on, if it is (R217). -/
def State.paDie (s : State) (pa : Nat) : BitVec 4 :=
  let on (d : Nat) : BitVec 4 := if s.fenced d then dieMask d else 0
  match paKind pa with
  | .hbm _ => on (dieOfStack (s.home pa).1)
  | .spad t _ => on (dieOfTile t)
  | _ => 0

/-- Whether an address is homed on a fenced die. -/
def State.paLost (s : State) (pa : Nat) : Bool := s.paDie pa != 0

/-- The object cache of a die, x = 0 the hub. -/
def objCache (x : Nat) (s : State) : List ObjEntry := if x = 0 then s.hub.objs else (s.die (x - 1)).objs

/-- The object cache of a die with an entry added (R260); a full one gives up the entry added first (LOG 176). -/
def objFill (x : Nat) (e : ObjEntry) (s : State) : State :=
  let add (l : List ObjEntry) : List ObjEntry := (e :: l).take 1024
  if x = 0 then { s with hub := { s.hub with objs := add s.hub.objs } }
  else s.modDie (x - 1) (fun d => { d with objs := add d.objs })

/-- The lookup of a virtual identifier in a context's object table (R259), at die x (0 the hub); successful entries are
cached (R260). -/
def objLookupRaw (x c vid : Nat) (op : OOp) (s : State) : Except OReason Nat × State :=
  let k := s.ctx c
  let pa := k.objBase.toNat * 4096 + 4 * vid
  if !k.objV || 2 ^ k.objSize.toNat ≤ vid then (.error .range, s)
  else
    match (objCache x s).find? (fun e => e.ctx.val == c && e.vid == vid) with
    | some e => (if s.paLost pa then .error (.dieLost (s.paDie pa)) else objCheck s op e.phys e.sg e.wt, s)
    | none =>
      let r := memRead (hubPort 0) pa 4 s
      let e := ofBytes (plain r.1.data)
      if r.1.met.dies ≠ 0 then (.error (.dieLost r.1.met.dies), r.2)
      else if r.1.met.poison then (.error .tablePoison, r.2)
      else if !nbit e 0 then (.error .unmapped, r.2)
      else if r.2.fenced (dieOfObj (nfld e 21 8)) then (.error (.dieLost (dieMask (dieOfObj (nfld e 21 8)))), r.2)
      else if nfld e 7 3 ≠ 0 ∨ nfld e 31 22 ≠ 0 then (.error .malformed, r.2)
      else
        match objCheck r.2 op (nfld e 21 8) (nbit e 1) (nbit e 2) with
        | .ok p => (.ok p, objFill x ⟨Fin.ofNat 64 c, vid, nfld e 21 8, nbit e 1, nbit e 2⟩ r.2)
        | .error o => (.error o, r.2)

/-- The lookup with the record of its first failure in SYNC_CTXc_FAULT (R259). -/
def objLookup (x c vid : Nat) (op : OOp) (s : State) : Except OReason Nat × State :=
  let r := objLookupRaw x c vid op s
  match r.1 with
  | .ok p => (.ok p, r.2)
  | .error o =>
    (.error o, r.2.modCtx c (fun k =>
      if bit k.objFault 63 then k
      else
        let v := vid % 2 ^ 20 + oreasonCode o * 2 ^ 20 + oopCode op * 2 ^ 23 + 2 ^ 63
        { k with objFault := BitVec.ofNat 64 v }))

/-- An object reference (R257). -/
inductive Ref where
  | loc (vid : Nat)
  | remote (win node : Nat)
  | reserved
deriving DecidableEq, Repr

/-- The reference that 64 bits spell (R257). -/
def refOf (v : Nat) : Ref :=
  let hi := v / 2 ^ 32
  if hi % 2 ^ 32 = 0 then .loc (v % 2 ^ 20)
  else if hi / 4096 % 2 ^ 20 = 0 then .reserved
  else .remote (hi % 4096) (hi / 4096 % 2 ^ 20)

/-- The VID in the low word of a reference. -/
def refVid (v : Nat) : Nat := v % 2 ^ 20

/-- A signal of a die (none: H) on its way to its home (R253, R265). -/
def postSignalOf (src : Option DieId) (phys : Nat) (inc : W32) (s : State) : State :=
  { s with sync := { s.sync with sigs := s.sync.sigs ++ [⟨phys, inc, src⟩] } }

/-- A signal sent on H. -/
def postSignal (phys : Nat) (inc : W32) (s : State) : State := postSignalOf none phys inc s

/-- A wait on its way to its home (R254). -/
def postWait (w : Wait) (s : State) : State :=
  { s with sync := { s.sync with arrivals := s.sync.arrivals ++ [w] } }

/-- The waits that a test keeps: those pending at their homes, on their way there, and on their way back (R268). -/
def keepWaits (keep : Wait → Bool) (s : State) : State :=
  { s with sync := { s.sync with
      waits := s.sync.waits.filter keep
      arrivals := s.sync.arrivals.filter keep
      returns := s.sync.returns.filter (fun e => keep e.1) } }

end Sys2Proof.Machine
end

