-- ==== Sys2Proof/Machine/Complete.lean ====
section
/-! DEFINITION. Completion of queue commands (R281-R283, R295, R296): a command leaves its queue, gives back its place or
leaves an entry to be posted. -/

namespace Sys2Proof.Machine

/-- Status codes (R295). -/
def statusCode : Status → Nat
  | .ok => 0x00 | .torn => 0x01 | .hostUnreachable => 0x02 | .dieLost => 0x03 | .xlateFault => 0x04 | .convFault => 0x05
  | .satRerun => 0x06 | .preempted => 0x07 | .poison => 0x08 | .windowFault => 0x09 | .feature => 0x0A
  | .aborted => 0x0B | .illegal => 0x0C | .timeout => 0x0D | .peerLost => 0x0E

/-- Position of a status in the list of R296: the earliest that applies wins. -/
def statusRank : Status → Nat
  | .illegal => 0 | .feature => 1 | .aborted => 2 | .preempted => 3 | .convFault => 4 | .xlateFault => 5 | .dieLost => 6
  | .peerLost => 7 | .windowFault => 8 | .timeout => 9 | .hostUnreachable => 10 | .poison => 11 | .satRerun => 12
  | .ok => 13 | .torn => 14

/-- The status of the two that R296 ranks first, with its DETAIL. -/
def worse (a b : Status × Nat) : Status × Nat := if statusRank a.1 ≤ statusRank b.1 then a else b

/-- Two statuses that one operation met (R295, R296): dies touched together, dropped writes added; else the first of a kind keeps
its DETAIL. -/
def joinStatus (a b : Status × Nat) : Status × Nat :=
  if a.1 = b.1 then
    match a.1 with
    | .dieLost => (.dieLost, a.2 ||| b.2)
    | .hostUnreachable => (.hostUnreachable, min (a.2 + b.2) 0xFFFFFFFF)
    | _ => a
  else worse a b

/-- The status of a command for what its accesses met (R295, R296). -/
def metStatus (m : Met) : Status × Nat :=
  let l : List (Status × Nat) :=
    [(if m.dies ≠ 0 then (.dieLost, m.dies.toNat) else (.ok, 0)),
     (if m.unreach then (.hostUnreachable, min m.drops 0xFFFFFFFF) else (.ok, 0)),
     (if m.poison then (.poison, 0) else (.ok, 0))]
  l.foldl worse (.ok, 0)

/-- The status of a translation that failed (R295). -/
def xresStatus : XRes → Status × Nat
  | .ok _ _ => (.ok, 0)
  | .fault r => (.xlateFault, xreasonCode r)
  | .lost d => (.dieLost, d.toNat)

/-- The status of an object lookup that failed (R261, R295). -/
def objStatus (o : OReason) : Status × Nat :=
  match o with
  | .dieLost m => (.dieLost, m.toNat)
  | o => (.xlateFault, oreasonCode o + 8)

/-- Fields of a command (R277). -/
def Cmd.opc (c : Cmd) : Nat := leAt c.bytes 0 1
def Cmd.flags (c : Cmd) : Nat := leAt c.bytes 1 1
def Cmd.len (c : Cmd) : Nat := leAt c.bytes 2 1 % 64 + 1
def Cmd.ctx (c : Cmd) : Nat := leAt c.bytes 3 1 % 64
def Cmd.seq (c : Cmd) : Nat := leAt c.bytes 4 4
def Cmd.barrier (c : Cmd) : Bool := nbit c.flags 0
def Cmd.nocqeOk (c : Cmd) : Bool := nbit c.flags 1
def Cmd.irq (c : Cmd) : Bool := nbit c.flags 2

/-- An entry handed to a completion queue: dropped and counted in ERROR, else waiting to be posted (R283); a dropped entry
gives its place back. -/
def queueEntry (cqn : Nat) (e : Entry) (s : State) : State :=
  if (s.cq cqn).state = .error then
    let s := s.modCq cqn (fun c => { c with dropped := satAdd c.dropped 1 })
    if e.placed then s.modSq e.sq.val (fun x => { x with places := x.places - 1 }) else s
  else s.modCq cqn (fun c => { c with waiting := c.waiting ++ [e] })

/-- The entry of a command (R281). -/
def entryOf (q : Nat) (c : Cmd) (st : Status) (detail : Nat) (result : Nat) (placed : Bool) (s : State) : Entry :=
  { sq := Fin.ofNat 1024 q, status := st, opc := BitVec.ofNat 8 c.opc, seq := BitVec.ofNat 32 c.seq, head := c.head,
    detail := BitVec.ofNat 32 detail, result := BitVec.ofNat 64 result, irq := c.irq, time := s.hub.tel,
    placed := placed }

/-- A started command. -/
def startedCmd (s : State) (q uid : Nat) : Option Cmd := (s.sq q).started.find? (fun c => c.uid == uid)

/-- A started command completes (R281-R283, R285). -/
def completeCmd (q uid : Nat) (st : Status) (detail result : Nat) (s : State) : State :=
  match startedCmd s q uid with
  | none => s
  | some c =>
    let quiet := c.nocqeOk && st == .ok
    let cqn := (s.sq q).cq.toNat
    let s := s.modSq q (fun x => { x with
      started := x.started.filter (fun y => y.uid != uid)
      places := if quiet then x.places - 1 else x.places })
    let s := trace 0 0 (q + 2 ^ 16 * c.opc + 2 ^ 24 * statusCode st + 2 ^ 32 * c.seq) s
    if quiet then s else queueEntry cqn (entryOf q c st detail result true s) s

/-- A started command that its own row has not run yet, of an opcode (R285, R287). -/
def onCmd (q uid opc : Nat) (f : Cmd → State → State) (s : State) : State :=
  match startedCmd s q uid with
  | some c => if c.opc = opc ∧ c.phase = .started then f c s else s
  | none => s

/-- A command that ends with ST_ILLEGAL and a DETAIL (R295). -/
def illegalCmd (q uid detail : Nat) (s : State) : State := completeCmd q uid .illegal detail 0 s

/-- Every fetched command of a queue that has not started completes with ST_ABORTED and a cause, with no other effect (R290,
R297). -/
def abortFetched (q cause : Nat) (s : State) : State :=
  let l := (s.sq q).fetched
  let cqn := (s.sq q).cq.toNat
  let s := s.modSq q (fun x => { x with fetched := [] })
  forEach l (fun c s => queueEntry cqn (entryOf q c .aborted (cause * 65536) 0 false s) s) s

/-- A command's phase changed. -/
def setPhase (q uid : Nat) (ph : CmdPhase) (s : State) : State :=
  s.modSq q (fun x => { x with started := x.started.map (fun c => if c.uid = uid then { c with phase := ph } else c) })

/-- The pending wait of a queue command taken off its object (R254). -/
def dropQueueWait (q uid : Nat) (s : State) : State :=
  let keep (w : Wait) : Bool := match w.who with
    | .queue q' u => !(q'.val == q && u == uid)
    | _ => true
  keepWaits keep s

/-- Every pending WAIT of a queue completes with ST_ABORTED and a cause (R290, R297). -/
def abortWaits (q cause : Nat) (s : State) : State :=
  forEach ((s.sq q).started.filter (fun c => c.opc == 0x03))
    (fun c s => completeCmd q c.uid .aborted (cause * 65536) 0 (dropQueueWait q c.uid s)) s

end Sys2Proof.Machine
end

