-- ==== Sys2Proof/Machine/Tiles.lean ====
section
/-! DEFINITION. Threads and tiles: registers and predicates (R155, R156), the merging buffer (R143), the L1 (R142), aborting a
kernel (R140), ending one (R149), and the return of waits (R254, R264). -/

namespace Sys2Proof.Machine

/-! ### Registers -/

/-- A general register; g0 reads 0 (R155). -/
def Thread.reg (t : Thread) (r : Nat) : W32 := if r = 0 then 0 else Sparse.read 0 t.regs r

/-- A general register written: g0 discards, the poison mark takes `bad` (R141, R155). -/
def Thread.setReg (t : Thread) (r : Nat) (v : W32) (bad : Bool) : Thread :=
  if r = 0 then t else { t with regs := Sparse.write 0 t.regs r v, marks := setBit t.marks r bad }

/-- Whether a register is marked poisoned (R141). -/
def Thread.marked (t : Thread) (r : Nat) : Bool := t.marks.getLsbD r

/-- A predicate; p7 reads 1 (R156). -/
def Thread.pred (t : Thread) (p : Nat) : Bool := p == 7 || t.preds.getLsbD p

/-- A predicate written; p7 discards (R156). -/
def Thread.setPred (t : Thread) (p : Nat) (b : Bool) : Thread :=
  if p = 7 then t else { t with preds := setBit t.preds p b }

/-- Whether a predicate carries a poison mark (R141). -/
def Thread.pmarked (t : Thread) (p : Nat) : Bool := p != 7 && t.pmarks.getLsbD p

/-- A predicate written with its poison mark; p7 discards (R141, R156). -/
def Thread.putPred (t : Thread) (p : Nat) (b bad : Bool) : Thread :=
  if p = 7 then t else { t.setPred p b with pmarks := setBit t.pmarks p bad }

/-- `n` registers from `r` on as one number (R155). -/
def Thread.regsAt (t : Thread) (r : Nat) : Nat → Nat
  | 0 => 0
  | n + 1 => (t.reg r).toNat + 2 ^ 32 * t.regsAt (r + 1) n

/-- A pair (R155). -/
def Thread.pair (t : Thread) (r : Nat) : Nat := t.regsAt r 2

/-- `n` registers from `r` on written from one number. -/
def Thread.setRegs (t : Thread) (r v : Nat) (bad : Bool) : Nat → Thread
  | 0 => t
  | n + 1 => (t.setReg r (BitVec.ofNat 32 v) bad).setRegs (r + 1) (v / 2 ^ 32) bad n

/-- Whether any of `n` registers from `r` on is marked. -/
def Thread.markedIn (t : Thread) (r n : Nat) : Bool := (List.range n).any (fun i => t.marked (r + i))

/-- Bits of `n` registers from `r` on. -/
def regMask (r n : Nat) : W64 := BitVec.ofNat 64 ((2 ^ n - 1) * 2 ^ r)

/-- Whether any of `n` registers from `r` on waits for a load (R159). -/
def Thread.busyIn (t : Thread) (r n : Nat) : Bool := (t.busy &&& regMask r n) != 0

/-! ### Tiles, groups, runs -/

/-- The kernel a tile runs. -/
def State.runKernel (s : State) (t : Nat) : Option Kernel :=
  match (s.tile t).run with
  | some r => s.kernel? r.kid
  | none => none

/-- The run of a tile changed. -/
def State.modRun (s : State) (t : Nat) (f : Run → Run) : State :=
  s.modTile t (fun x => { x with run := x.run.map f })

/-- Whether a tile issues: it runs a kernel that no abort has stopped (R140). -/
def State.issues (s : State) (t : Nat) : Bool :=
  match (s.tile t).run with
  | some r => !r.stopped
  | none => false

/-- A group of a run changed. -/
def Run.modGroup (r : Run) (g : Nat) (f : Group → Group) : Run :=
  { r with groups := r.groups.map (fun x => if x.num = g then f x else x) }

/-- A thread of a group changed. -/
def Group.modThread (g : Group) (l : Nat) (f : Thread → Thread) : Group :=
  { g with threads := g.threads.modify l f }

/-- A thread of a tile changed. -/
def State.modThread (s : State) (t g l : Nat) (f : Thread → Thread) : State :=
  s.modRun t (fun r => r.modGroup g (fun x => x.modThread l f))

/-- A resident group of a tile (R130). -/
def State.group? (s : State) (t g : Nat) : Option Group :=
  match (s.tile t).run with
  | some r => r.groups.find? (fun x => x.num == g)
  | none => none

/-- A thread of a resident group. -/
def State.thread? (s : State) (t g l : Nat) : Option Thread :=
  match s.group? t g with
  | some x => x.threads[l]?
  | none => none

/-- The function in whose name a kernel's requests go (R271). -/
def kernelFn (s : State) (k : Kernel) : Nat := (s.ctx k.ctx.val).func.toNat

/-- The function behind a tile's accesses. -/
def tileFn (s : State) (t : Nat) : Nat :=
  match s.runKernel t with
  | some k => kernelFn s k
  | none => 0

/-- The port of a tile's thread accesses. -/
def threadPort (s : State) (t : Nat) (coh : Bool) : Port := ⟨.tile (Fin.ofNat 96 t), tileFn s t, .allocating, coh⟩

/-- The port of a tile's DX accesses. -/
def dxPort (s : State) (t : Nat) (coh : Bool) : Port := ⟨.tile (Fin.ofNat 96 t), tileFn s t, .streaming, coh⟩

/-! ### L1 and merging buffer -/

/-- The L1 invalidated: its lines, and the installing of the fills under way (R142, R147, R148). -/
def Tile.l1Invalidate (t : Tile) : Tile :=
  { t with l1 := [], fills := t.fills.map (fun f => { f with install := false }) }

/-- Runs of consecutive offsets of a masked entry. -/
def byteRuns (m : Sparse Byte) : List (Nat × List Byte) :=
  m.foldr (fun e acc =>
    match acc with
    | (k, bs) :: rest => if k = e.1 + 1 then (e.1, e.2 :: bs) :: rest else (e.1, [e.2]) :: acc
    | [] => [(e.1, [e.2])]) []

/-- The runs of bytes that an entry of the merging buffer writes. -/
def MergeEntry.runs (e : MergeEntry) : List (Nat × List PB) :=
  (byteRuns e.bytes).map (fun r => (256 * e.granule + r.1, r.2.mapIdx (fun i b => (b, KeySet.has e.poison (r.1 + i)))))

/-- An entry of the merging buffer drained to its home in one request (R143), poisoned bytes as poison (R388). -/
def drainEntry (t : Nat) (e : MergeEntry) (s : State) : Met × State := writeRuns (threadPort s t e.coh) e.runs s

/-- Whether the write of an entry must wait at its home (R216, R340). -/
def entryWaits (s : State) (e : MergeEntry) : Bool :=
  match paKind (256 * e.granule) with
  | .hbm _ => writeWaits (256 * e.granule) s
  | _ => false

/-- What drained or loaded data met, added to the completion of the tile's kernel (R171). -/
def noteDrops (t : Nat) (m : Met) (s : State) : State :=
  match (s.tile t).run with
  | some r =>
    if m.unreach then s.modKernel r.kid (fun k => { k with hostLost := true, drops := k.drops + m.drops }) else s
  | none => s

/-- The n-th entry of a tile's merging buffer drained. -/
def drainNth (t n : Nat) (s : State) : Met × State :=
  match (s.tile t).merge[n]? with
  | none => ({}, s)
  | some e =>
    let w := drainEntry t e (s.modTile t (fun x => { x with merge := dropNth x.merge n }))
    (w.1, noteDrops t w.1 w.2)

/-- Entries of the merging buffer that a test names drained, the oldest first (R143). -/
def drainThose (p : State → MergeEntry → Bool) (t : Nat) (s : State) : Met × State :=
  let w := (s.tile t).merge.foldl (fun (acc : Met × State × List MergeEntry) e =>
    if p acc.2.1 e then
      let w := drainEntry t e acc.2.1
      (acc.1.and w.1, w.2, acc.2.2)
    else (acc.1, acc.2.1, acc.2.2 ++ [e])) (({} : Met), s, [])
  (w.1, noteDrops t w.1 (w.2.1.modTile t (fun x => { x with merge := w.2.2 })))

/-- The whole merging buffer drained, oldest entry first (R143). -/
def drainAll (t : Nat) (s : State) : Met × State := drainThose (fun _ _ => true) t s

/-- The merging buffer drained but for entries whose write must wait: those drain later (R140, R216, R340). -/
def drainSome (t : Nat) (s : State) : Met × State := drainThose (fun s e => !entryWaits s e) t s

/-! ### Ending kernels -/

/-- The status and DETAIL of a kernel that has ended everywhere (R140, R171, R296): the first abort, else the first condition
in the order of R171, R328 and R296. -/
def kernelStatus (k : Kernel) : Status × Nat :=
  match k.abort with
  | some a => a
  | none =>
    let l : List (Status × Nat) :=
      [(if k.hostLost then (.hostUnreachable, min k.drops 0xFFFFFFFF) else (.ok, 0)),
       (match k.peerLost with | some n => (.peerLost, n) | none => (.ok, 0)),
       (match k.winFault with | some d => (.windowFault, d) | none => (.ok, 0)),
       (if k.poison then (.poison, 0) else (.ok, 0)),
       (if k.reruns = 0 then (.ok, 0) else (.satRerun, min k.reruns 0xFFFFFFFF))]
    (l.find? (fun e => e.1 != .ok)).getD (.ok, 0)

/-- A kernel that runs nowhere, has no tile left to start on and no remote signal unanswered completes its LAUNCH (R140, R288,
R328). -/
def finishKernel (kid : Nat) (s : State) : State :=
  match s.kernel? kid with
  | none => s
  | some k =>
    if k.live = 0 ∧ k.todo = 0 ∧ k.remote = 0 then
      let st := kernelStatus k
      let s := { s with kernels := s.kernels.filter (fun x => x.kid != kid) }
      let s := trace 0 5 (k.kid + 2 ^ 32 * statusCode st.1) s
      completeCmd k.sq.val k.uid st.1 st.2 0 s
    else s

/-- A tile's waits taken off their objects (R140, R268). -/
def dropTileWaits (t : Nat) (s : State) : State :=
  let keep (w : Wait) : Bool := match w.who with
    | .tile u => u.val != t
    | _ => true
  let s := s.modTile t (fun x => { x with waits := [] })
  keepWaits keep s

/-- A tile stops issue for its kernel: blocked and pending thread instructions are discarded, the merging buffer drains (R140). -/
def stopTile (t : Nat) (s : State) : State :=
  match (s.tile t).run with
  | none => s
  | some r =>
    if r.stopped then s
    else
      let s := s.modTile t (fun x => { x with run := x.run.map (fun r => { r with stopped := true }), fills := [] })
      (drainSome t (dropTileWaits t s)).2

/-- The record of an abort in the negative of a die, with its PC (R415). -/
def abortRecord (x : Nat) (k : Kernel) (pc : Nat) (st : Status) (s : State) : State :=
  trace x 5 (k.kid + 2 ^ 32 * statusCode st + 2 ^ 64 * pc + 2 ^ 128) s

/-- KERNEL_ABORT (R140, R393): code, PC, status and TRAP code. -/
def logKernelAbort (k : Kernel) (unit pc : Nat) (st : Status) (trapCode : Nat) (s : State) : State :=
  logRas { cls := .contained, code := 0x21, unit := unit, ctx := some k.ctx.val, addr := pc,
           info := statusCode st + 256 * (trapCode % 65536) } s

/-- The first abort of a kernel recorded; tiles that have not started it never do (R140). -/
def markAbort (kid : Nat) (st : Status) (detail : Nat) (s : State) : State :=
  let s := s.modKernel kid (fun k =>
    { k with abort := (match k.abort with | some a => some a | none => some (st, detail)), todo := 0 })
  { s with tiles := Sparse.mapVals {} s.tiles (fun t => { t with waiting := t.waiting.filter (· != kid) }) }

/-- An abort raised on a tile by one of its instructions or operations (R140): other tiles stop by their own row. -/
def abortOnTile (t : Nat) (st : Status) (detail pc trapCode : Nat) (s : State) : State :=
  match s.runKernel t with
  | none => s
  | some k =>
    let s := logKernelAbort k (unitTile t) pc st trapCode (abortRecord (1 + dieOfTile t) k pc st s)
    stopTile t (markAbort k.kid st detail s)

/-- An abort of a kernel from outside its instructions (R290, R299, R376, R378, R380): every tile that runs it stops. -/
def abortKernel (kid : Nat) (st : Status) (detail : Nat) (s : State) : State :=
  match s.kernel? kid with
  | none => s
  | some k =>
    let s := logKernelAbort k unitNone 0 st 0 (abortRecord 0 k 0 st s)
    let s := markAbort kid st detail s
    finishKernel kid (forEach (bitsSet k.live) stopTile s)

/-- An access of a thread that met a fenced die aborts its kernel (R381). -/
def abortIfLost (t : Nat) (m : Met) (pc : Nat) (s : State) : State :=
  if m.dies ≠ 0 then abortOnTile t .dieLost m.dies.toNat pc 0 s else s

/-! ### Waits that return -/

/-- A thread whose WAITS is satisfied (R177): value, predicate, on to the next instruction. -/
def Thread.satisfy (t : Thread) (w : ThreadWait) (v : W32) : Thread :=
  { (t.setReg w.dst.toNat v false).putPred w.p.toNat true false with st := .runnable, pc := t.pc + 8 }

/-- The threads of a tile that wait on an object with a target return; the wait is an acquire (R148, R254, R267). -/
def wakeTile (t phys : Nat) (target v : W32) (s : State) : State :=
  s.modTile t (fun x =>
    let x := x.l1Invalidate
    { x with
      waits := x.waits.filter (fun w => !(w.phys == phys && w.target == target))
      run := x.run.map (fun r => { r with groups := r.groups.map (fun g => { g with
        threads := g.threads.map (fun th =>
          match th.st with
          | .waiting w => if w.phys = phys ∧ w.target = target ∧ w.registered then th.satisfy w v else th
          | _ => th) }) }) })

/-- An arm slot fires (R264): ENABLE cleared, FIRED set, its interrupt sent. -/
def fireArm (c a : Nat) (lost : Bool) (s : State) : State :=
  let arm := Sparse.read {} (s.ctx c).arms a
  let arm' := { arm with enable := false, fired := arm.fired || !lost, lost := arm.lost || lost }
  let s := s.modCtx c (fun x => { x with arms := Sparse.write {} x.arms a arm' })
  if arm.ident = 0 then s else sendImsic arm.file arm.ident.toNat s

/-- The die of who waits; none: H. -/
def Waiter.die? : Waiter → Option Nat
  | .tile t => some (dieOfTile t.val)
  | .queue _ _ => none
  | .arm _ _ => none
  | .coll _ => none

/-- A wait's return with the value reaches who waits. -/
def returnWait (w : Wait) (v : W32) (s : State) : State :=
  match w.who with
  | .tile t => wakeTile t.val w.phys w.target v s
  | .queue q uid => completeCmd q.val uid .ok 0 v.toNat s
  | .arm c a => fireArm c.val a.val false s
  | .coll _ => s

/-- A satisfied wait returns with the value (R254); a return that a die in test mode does not carry is held until it can go (R21,
LOG 163). -/
def deliverWait (w : Wait) (v : W32) (s : State) : State :=
  if s.parted w.who.die? (dieOfObj w.phys) then { s with sync := { s.sync with returns := s.sync.returns ++ [(w, v)] } }
  else returnWait w v s

/-- Held returns that can go (R21). -/
def settleReturns (s : State) : State :=
  let held (e : Wait × W32) : Bool := s.parted e.1.who.die? (dieOfObj e.1.phys)
  let go := s.sync.returns.filter (fun e => !held e)
  forEach go (fun e => returnWait e.1 e.2) { s with sync := { s.sync with returns := s.sync.returns.filter held } }

/-- The value of an object (R253). -/
def State.obj (s : State) (p : Nat) : W32 := Sparse.read 0 s.sync.vals p

/-- Every pending wait on an object that its value satisfies returns (R254). -/
def evalWaits (p : Nat) (s : State) : State :=
  let v := s.obj p
  let hit (w : Wait) : Bool := w.phys == p && reached v w.target
  let l := s.sync.waits.filter hit
  let s := { s with sync := { s.sync with waits := s.sync.waits.filter (fun w => !hit w) } }
  forEach l (fun w s => deliverWait w v s) s

/-- The value of an object changed, and its waits evaluated (R254). -/
def setObj (p : Nat) (v : W32) (s : State) : State :=
  evalWaits p { s with sync := { s.sync with vals := Sparse.write 0 s.sync.vals p v } }

/-- The pending wait of an arm slot taken off its object (R264). -/
def dropArmWait (c a : Nat) (s : State) : State :=
  let keep (w : Wait) : Bool := match w.who with
    | .arm c' a' => !(c'.val == c && a'.val == a)
    | _ => true
  keepWaits keep s

end Sys2Proof.Machine
end

