-- ==== Sys2Proof/Machine/Sram.lean ====
section
/-! DEFINITION. Errors that the protection of a memory outside the pool finds (R388): corrected and recorded, or turned into poison.
Memories by their place in the table of R388: 3 register file, 4 merging buffer, 5 tile L1 and instruction cache, 7 L1 instruction cache
of a core, 8 host-line cache, 9 replay buffers and staging, 11 memories of the control complex and the security engine. -/

namespace Sys2Proof.Machine

/-- SRAM_CE (R393): a memory of R388, by its place in the table. -/
def logSramCe (unit mem : Nat) (s : State) : State :=
  logRas { cls := .corrected, code := 0x19, unit := unit, info := Config.sramCode mem } s

/-- SPAD_CE and SPAD_UE (R388, R393): the word's offset; an uncorrectable error poisons the word. -/
def spadFlaw (t word : Nat) (bad : Bool) (s : State) : State :=
  if bad then
    logRas { cls := .deferred, code := 0x16, unit := unitTile t, addr := 8 * word }
      (s.modTile t (fun x => { x with spoison := KeySet.add x.spoison word }))
  else logRas { cls := .corrected, code := 0x15, unit := unitTile t, addr := 8 * word } s

/-- An error in a register of a resident thread (R388): marked poisoned where it is uncorrectable; g0 is no memory (R155). -/
def regFlaw (t g l r : Nat) (bad : Bool) (s : State) : State :=
  if r = 0 ∨ (s.thread? t g l).isNone then s
  else if bad then s.modThread t g l (fun th => { th with marks := setBit th.marks r true })
  else logSramCe (unitTile t) 3 s

/-- The written bytes of an 8 B word of a merging-buffer entry marked poisoned. -/
def MergeEntry.spoil (e : MergeEntry) (word : Nat) : MergeEntry :=
  { e with poison := (List.range 8).foldl (fun p j =>
      if (Sparse.find? e.bytes (8 * word + j)).isSome then KeySet.add p (8 * word + j) else p) e.poison }

/-- An error in a word of an entry of the merging buffer (R388): those bytes drain poisoned where it is uncorrectable. -/
def mergeFlaw (t granule word : Nat) (bad : Bool) (s : State) : State :=
  if (s.tile t).merge.any (fun e => e.granule == granule) then
    if bad then
      s.modTile t (fun x => { x with merge := x.merge.map (fun e => if e.granule = granule then e.spoil word else e) })
    else logSramCe (unitTile t) 4 s
  else s

/-- A parity error in a line of the tile L1 (R388): the line invalidated. -/
def l1Flaw (t i : Nat) (s : State) : State :=
  if (Sparse.find? (s.tile t).l1 i).isSome then
    logSramCe (unitTile t) 5 (s.modTile t (fun x => { x with l1 := Sparse.drop x.l1 i }))
  else s

/-- A parity error in the instruction cache (R388): the 64 B line of a word invalidated. -/
def icacheFlaw (t w : Nat) (s : State) : State :=
  match (s.tile t).run with
  | some r =>
    if r.icache.any (fun e => e.1 / 8 == w / 8) then
      logSramCe (unitTile t) 5 (s.modRun t (fun r => { r with icache := Sparse.keep r.icache (fun k => k / 8 != w / 8) }))
    else s
  | none => s

/-- A cell fault that develops in an array: nothing reports it until a self-test (R58). -/
def cellFlaw (t a : Nat) (s : State) : State :=
  { s with worn := KeySet.add s.worn (2 * t + a) }

/-- Whether an array has a cell fault. -/
def State.broken (s : State) (t a : Nat) : Bool := KeySet.has s.worn (2 * t + a)

/-- One error of a tile's memories (R388) or arrays (R58). -/
def meetFlaw (t : Nat) (f : Flaw) (s : State) : State :=
  match f with
  | .spad word bad => spadFlaw t word.val bad s
  | .reg g l r bad => regFlaw t g l.val r.toNat bad s
  | .merge granule word bad => mergeFlaw t granule word.val bad s
  | .l1 i => l1Flaw t i.val s
  | .icache w => icacheFlaw t w s
  | .cell a => cellFlaw t a.val s

/-- The errors that a step of a tile meets in its memories (R388), before it reads them. -/
def meetFlaws (t : Nat) (fl : List Flaw) (s : State) : State := forEach fl (meetFlaw t) s

/-! ### Server-core caches -/

/-- CORE_CE and CORE_UE (R388, R393): the line's PA and the cache level. -/
def logCoreEcc (unit level line : Nat) (err : EccEvent) (s : State) : State :=
  match err with
  | .none => s
  | .corrected => logRas { cls := .corrected, code := 0x17, unit := unit, addr := 64 * line, info := level } s
  | .uncorrectable => logRas { cls := .deferred, code := 0x18, unit := unit, addr := 64 * line, info := level } s

/-- A line in which an error was found (R388). -/
def CLine.hurt (c : CLine) (err : EccEvent) : CLine := { c with poison := c.poison || err == .uncorrectable }

/-- An error in a core's copy of a line. -/
def l2Flaw (k line : Nat) (err : EccEvent) (s : State) : State :=
  match err, s.l2 k line with
  | .none, _ => s
  | _, some c => logCoreEcc (unitCore k) 2 line err (putL2 k line (c.hurt err) s)
  | _, none => s

/-- An error in a line of a core's L1 data cache, which its L2 includes (R236). -/
def l1dFlaw (k line : Nat) (err : EccEvent) (s : State) : State :=
  match err, s.l2 k line with
  | .none, _ => s
  | _, some c => logCoreEcc (unitCore k) 1 line err (putL2 k line (c.hurt err) s)
  | _, none => s

/-- A parity error in a core's L1 instruction cache: the line is refetched. -/
def l1iFlaw (k : Nat) (s : State) : State := logSramCe (unitCore k) 7 s

/-- An error in the L3's copy of a line. -/
def l3Flaw (line : Nat) (err : EccEvent) (s : State) : State :=
  match err, s.l3 line with
  | .none, _ => s
  | _, some c => logCoreEcc 0 3 line err (putL3 line (c.hurt err) s)
  | _, none => s

/-- An error in the copy that supplies a line (R243): the Modified one, else the L3's. -/
def supplyFlaw (line : Nat) (err : EccEvent) (s : State) : State :=
  match ownerOf s line with
  | some (some k, _) => l2Flaw k line err s
  | _ => l3Flaw line err s

/-! ### Host-line cache and replay buffers -/

/-- An error in a line of the host-line cache (R388). -/
def hostLineFlaw (line : Nat) (err : EccEvent) (s : State) : State :=
  match err, Sparse.find? s.cores.hlc line with
  | .corrected, some _ => logSramCe 0 8 s
  | .uncorrectable, some h =>
    { s with cores := { s.cores with hlc := Sparse.insert s.cores.hlc line { h with poison := true } } }
  | _, _ => s

/-- An error in a frame of a replay buffer, named by its LSEQ (R388): recorded; an uncorrectable one discards the frame, which is sent again
by its timeout (R319). -/
def replayFlaw (q lseq : Nat) (bad : Bool) (s : State) : State :=
  if (s.quad q).replayBuf.any (fun e => e.1 == lseq) then
    logSramCe (unitQuad q) 9
      (if bad then s.modQuad q (fun x => { x with replayBuf := x.replayBuf.filter (fun e => e.1 != lseq) }) else s)
  else s

/-- An error in the staging of the sequencer or of the checkpoint engine (R388): recorded. -/
def stagingFlaw (err : EccEvent) (s : State) : State := if err = .none then s else logSramCe 0 9 s

/-- The frames that a step sent from staged data found uncorrectable (R388): discarded, so that each request goes out with its timeout
(R319). -/
def unsent (err : EccEvent) (before after : State) : State :=
  if err = .uncorrectable then
    { after with
      net := { after.net with quad := before.net.quad, rr := before.net.rr }
      out := before.out ++ (after.out.drop before.out.length).filter (fun e => match e with | .frame _ _ => false | _ => true) }
  else after

end Sys2Proof.Machine
end

