-- ==== Sys2Proof/Machine/Power.lean ====
section
/-! DEFINITION. The power cap and its controller (R353-R355, R402), the shutter (R356), efficiency points (R357, R358),
temperature (R359-R361), server-core dividers (R351) and supply dips (R345). -/

namespace Sys2Proof.Machine

/-- Whether an origin may write the power and clock registers (R353, R357): PF0, the control complex, cores in M mode. -/
def originPwr : Origin → Bool
  | .pf0 => true
  | .zoilo _ => true
  | .core _ m => m
  | _ => false

/-! ### Cap -/

/-- Watts held from received grants (R363). -/
def Pwr.received (p : Pwr) : Nat := (p.recv.map (·.watts)).sum

/-- Watts donated and not yet reclaimed (R363). -/
def Pwr.donated (p : Pwr) : Nat := (p.don.map (·.watts)).sum

/-- The base of a member (R363). -/
def GroupCfg.base (g : GroupCfg) : Nat := g.w / g.members.length

/-- B + R − D (R363). -/
def Pwr.share (p : Pwr) : Nat :=
  match p.group with
  | some g => g.base + p.received - p.donated
  | none => p.cap

/-- The effective cap (R363): CAP outside a group, min(CAP, 700 W) while joining, else min(CAP, B + R − D). -/
def Pwr.effective (p : Pwr) : Nat :=
  match p.group with
  | some _ => if p.joining then min p.cap 700 else min p.cap p.share
  | none => p.cap

/-- A change of the power settings: where the effective cap or WINDOW changes, the controller takes every earlier sample as equal
to the new cap (R354, R363). -/
def Pwr.adjust (p p' : Pwr) : Pwr :=
  if p'.effective = p.effective ∧ p'.window = p.window then p' else { p' with samples := [], overMs := 0 }

/-- The power settings changed. -/
def modPwr (f : Pwr → Pwr) (s : State) : State := { s with pwr := s.pwr.adjust (f s.pwr) }

/-- CAP and WINDOW in range (R353). -/
def capInRange (cap window : Nat) : Bool :=
  decide (700 ≤ cap) && decide (cap ≤ 1800) && decide (1000 ≤ window) && decide (window ≤ 10000)

/-- CAP and WINDOW set (R353). -/
def setCap (cap window : Nat) (s : State) : State := modPwr (fun p => { p with cap := cap, window := window }) s

/-- A write of PWR_CAP (R353): out of range, or by an origin that may not, it changes nothing and is logged. -/
def pwrCapOp (o : Origin) (v : W64) (s : State) : State :=
  if originPwr o && capInRange (fld v 10 0) (fld v 29 16) then setCap (fld v 10 0) (fld v 29 16) s
  else logReg 0x200010 (originReq o) s

/-- The sum of the last n samples; earlier ones count as the effective cap (R354). -/
def sampleSum (eff : Nat) (l : List Nat) (n : Nat) : Nat := (l.take n).sum + (n - l.length) * eff

/-- The target of the controller (R354). -/
def capTarget (p : Pwr) (overMs : Nat) : Int :=
  if 16 ≤ overMs then 1700
  else min ((p.effective * p.window : Nat) - (sampleSum p.effective p.samples (p.window - 1) : Nat) : Int) 1800

/-- The L_CAP that the controller sets (R354). -/
def capNext (lcap : Nat) (target : Int) (pk ak : Nat) : Nat :=
  if (pk : Int) ≤ target then min 64 (lcap + 4)
  else if 0 < ak then
    let room := max 0 (target - ((pk : Int) - (ak : Int)))
    max 4 ((lcap * room.toNat) / ak)
  else lcap

/-- One millisecond of the controller (R354): p and a are the mean input power and the arrays' power, in watts. AVG is the mean of what
was measured, over WINDOW or as far back as the module has run. -/
def capTick (pk ak : Nat) (s : State) : State :=
  let p := s.pwr
  let overMs := if 1800 < pk then p.overMs + 1 else 0
  let target := capTarget p overMs
  let l := capNext p.lcap.toNat target pk ak
  let unmet := l == 4 && decide (target < (pk : Int))
  let n := min p.window (p.raw.length + 1)
  let total := pk + (p.raw.take (p.window - 1)).sum
  let up := if total % n = 0 then 0 else ((Config.freeBits s.free 0).toNat) % 2
  let p' := { p with
    lcap := BitVec.ofNat 7 l, lcapForced := false, last := pk, avg := total / n + up
    unmet := unmet, unmetEv := p.unmetEv || (unmet && !p.unmet)
    excursion := decide (1800 < pk)
    excount := if 1800 < pk ∧ !p.excursion then satAdd p.excount 1 else p.excount
    samples := (pk :: p.samples).take 9999, raw := (pk :: p.raw).take 9999, overMs := overMs }
  let s := { s.took with pwr := p' }
  let s := if p'.lcap = p.lcap then s else trace 0 3 l s
  if unmet && !p.unmet then logRas { cls := .notice, code := 0x60, unit := unitNone, info := pk } s else s

/-- Whether the service of a control core does not run: held down (R401), or no image was started (R407). -/
def State.serviceDown (s : State) (z : Nat) : Bool := s.ctl.noImage || s.ctl.down.getLsbD z

/-- Whether the service of Z2 stands still (R402): it does not run, or it is stalled, as the forced L_CAP shows. -/
def State.z2Still (s : State) : Bool := s.serviceDown 2 || s.pwr.lcapForced

/-- CAP_CONTROL_TICK (R354): nothing while the controller's service does not run (R401, R407). -/
def execCapControlTick (p a : Nat) (s : State) : Host.Outcome State Fault Refusal :=
  .next (whenLive (fun s => if s.serviceDown 2 then s else capTick p a s) s)

/-- LCAP_WATCHDOG (R402): L_CAP forced to 16 until the controller writes it again. -/
def execLcapWatchdog (s : State) : Host.Outcome State Fault Refusal :=
  .next (whenLive (fun s =>
    let s' := { s with pwr := { s.pwr with lcap := 16, lcapForced := true } }
    if s.pwr.lcap = 16 then s' else trace 0 3 16 s') s)

/-- PWR_CAP_WRITE (R353). -/
def execPwrCapWrite (o : Origin) (v : W64) (s : State) : Host.Outcome State Fault Refusal :=
  .next (whenLive (pwrCapOp o v) s)

/-- JOIN_HOLD_END (R363): the hold at 700 W ends. -/
def execJoinHoldEnd (s : State) : Host.Outcome State Fault Refusal :=
  .next (whenLive (modPwr (fun p => { p with joining := false })) s)

/-! ### Shutter -/

/-- A droop detector's report, or its end (R356). -/
def droopOp (t : Nat) (low : Bool) (s : State) : State :=
  let d := dieOfTile t
  if s.fenced d then s
  else if low then
    trace 0 3 (256 + t) (s.modDie d (fun x =>
      { x with trips := satAdd x.trips 1, clamp := true, droops := setBit x.droops (t % 24) true,
               lastTile := BitVec.ofNat 7 t }))
  else s.modDie d (fun x => { x with droops := setBit x.droops (t % 24) false })

/-- DROOP_REPORT (R356). -/
def execDroopReport (t : TileId) (low : Bool) (s : State) : Host.Outcome State Fault Refusal :=
  .next (whenLive (droopOp t.val low) s)

/-- The array cycles of a clamp that ends, counted (R396): a free number. -/
def clampCycles (d : Nat) (s : State) : State := (pmcAdd (1 + d) 7 (Config.freeBits s.free 2).toNat s).took

/-- The end of a clamp after droops (R356). -/
def endClamp (d : Nat) (s : State) : State :=
  let x := s.die d
  let s := if x.droops = 0 ∧ x.clamp ∧ !x.hold then clampCycles d s else s
  s.modDie d (fun x => if x.droops = 0 then { x with clamp := false } else x)

/-- SHUTTER_RELEASE (R356): 256 array cycles after the last droop the clamp ends. -/
def execShutterRelease (d : DieId) (s : State) : Host.Outcome State Fault Refusal :=
  .next (whenLive (endClamp d.val) s)

/-! ### Efficiency points -/

/-- The point a die must run at: the lower of TARGET and its thermal step (R357). -/
def pointNeeded (target : BitVec 2) (x : Die) : BitVec 2 := if target < x.steps then x.steps else target

/-- A change of a die's point started where one is needed (R357); while another runs it is latched (R358). -/
def Die.startChange (target : BitVec 2) (x : Die) : Die :=
  let want := pointNeeded target x
  match x.phase with
  | .idle =>
    if want = x.point then { x with latched := false }
    else if x.point < want then { x with phase := .clamped want, hold := true, latched := false }
    else { x with phase := .rampUp want, latched := false }
  | .rampUp dest => { x with latched := want != dest }
  | .clamped dest => { x with latched := want != dest }
  | _ => { x with latched := want != x.point }

/-- The end of a change: a latched need starts the next (R358). -/
def Die.endChange (target : BitVec 2) (x : Die) : Die := { x with phase := .idle, latched := false }.startChange target

/-- A write of CLK_ARR (R357). -/
def clkArrOp (o : Origin) (v : W64) (s : State) : State :=
  if originPwr o then
    if fld v 1 0 = 3 then s
    else
      let tgt := BitVec.ofNat 2 (fld v 1 0)
      let s := { s with pwr := { s.pwr with target := tgt } }
      forEach dieList (fun d s => if s.fenced d then s else s.modDie d (Die.startChange tgt)) s
  else logReg 0x201000 (originReq o) s

/-- CLK_ARR_TARGET (R357). -/
def execClkArrTarget (o : Origin) (v : W64) (s : State) : Host.Outcome State Fault Refusal :=
  .next (whenLive (clkArrOp o v) s)

/-- The switch of the pulse-removal pattern (R357): a change that waits under its clamp takes the new point. -/
def Die.switchPattern (x : Die) : Die :=
  match x.phase with
  | .clamped dest => { x with phase := if x.point < dest then .switchedLow else .switched, point := dest }
  | _ => x

/-- ARR_PATTERN_SWITCH (R357). -/
def execArrPatternSwitch (d : DieId) (s : State) : Host.Outcome State Fault Refusal :=
  .next (whenLive (fun s => trace 0 3 (512 + d.val) (s.modDie d.val Die.switchPattern)) s)

/-- The end of the hold (R357): a raise is complete, a lowering ramps VDD_ARR down; a droop in progress keeps the clamp. -/
def Die.releaseHold (target : BitVec 2) (x : Die) : Die :=
  if x.droops ≠ 0 then x
  else
    match x.phase with
    | .switched => { x with hold := false }.endChange target
    | .switchedLow => { x with hold := false, phase := .rampDown }
    | _ => x

/-- The hold of a die ended (R357), with the clamp that it was (R396). -/
def endHold (d : Nat) (s : State) : State :=
  let x := s.die d
  let s := if x.hold ∧ !(x.releaseHold s.pwr.target).hold ∧ !x.clamp then clampCycles d s else s
  s.modDie d (Die.releaseHold s.pwr.target)

/-- HOLD_RELEASE (R357). -/
def execHoldRelease (d : DieId) (s : State) : Host.Outcome State Fault Refusal :=
  .next (whenLive (endHold d.val) s)

/-- VDD_ARR at its set point (R357). -/
def Die.rampDone (target : BitVec 2) (x : Die) : Die :=
  match x.phase with
  | .rampUp dest => { x with phase := .clamped dest, hold := true }
  | .rampDown => x.endChange target
  | _ => x

/-- VDD_ARR_RAMP_DONE (R357). -/
def execVddArrRampDone (d : DieId) (s : State) : Host.Outcome State Fault Refusal :=
  .next (whenLive (fun s => s.modDie d.val (Die.rampDone s.pwr.target)) s)

/-- The slot limit of the arrays of a die (R352). -/
def slotLimit (s : State) (d : Nat) : Nat :=
  let x := s.die d
  min (min s.pwr.lcap.toNat x.ltherm.toNat) (if x.clamp || x.hold then 16 else 64)

/-! ### Server-core dividers -/

/-- The divider written for a core. -/
def State.srvDiv (s : State) (k : Nat) : Nat := (Sparse.read (2 : BitVec 3) s.cores.srvDiv k).toNat

/-- The divider in force. -/
def State.srvAct (s : State) (k : Nat) : Nat := (Sparse.read (2 : BitVec 3) s.cores.srvAct k).toNat

/-- The divider a core must run at: the larger of DIV and the hub's ceiling (R351). -/
def srvWanted (s : State) (k : Nat) : Nat := max (s.srvDiv k) s.hub.srvceil.toNat

/-- A core brought to its divider (R351): a lower frequency at once, a higher one once VDD_SRV has ramped. -/
def srvSettle (k : Nat) (s : State) : State :=
  let w := srvWanted s k
  if s.srvAct k < w then
    { s with cores := { s.cores with
        srvAct := Sparse.write 2 s.cores.srvAct k (BitVec.ofNat 3 w)
        srvRamp := s.cores.srvRamp.filter (· != k) } }
  else if w < s.srvAct k then
    { s with cores := { s.cores with srvRamp := s.cores.srvRamp.filter (· != k) ++ [k] } }
  else { s with cores := { s.cores with srvRamp := s.cores.srvRamp.filter (· != k) } }

/-- A write of CLK_SRVn (R351): by that core in M mode or the control complex. -/
def clkSrvOp (o : Origin) (k : Nat) (v : Nat) (s : State) : State :=
  let may : Bool := match o with
    | .zoilo _ => true
    | .core j m => j.val == k && m
    | _ => false
  if may then
    if v % 8 < 2 then s
    else srvSettle k { s with cores := { s.cores with srvDiv := Sparse.write 2 s.cores.srvDiv k (BitVec.ofNat 3 v) } }
  else logReg (0x201100 + 4 * k) (originReq o) s

/-- CLK_SRV_DIV (R351). -/
def execClkSrvDiv (o : Origin) (k : CoreId) (v : W32) (s : State) : Host.Outcome State Fault Refusal :=
  .next (whenLive (clkSrvOp o k.val v.toNat) s)

/-- A raise that waited for VDD_SRV takes effect (R351). -/
def srvRampDone (k : Nat) (s : State) : State :=
  if s.cores.srvRamp.contains k then
    { s with cores := { s.cores with
        srvAct := Sparse.write 2 s.cores.srvAct k (BitVec.ofNat 3 (srvWanted s k))
        srvRamp := s.cores.srvRamp.filter (· != k) } }
  else s

/-- VDD_SRV_RAMP_DONE (R351). -/
def execVddSrvRampDone (k : CoreId) (s : State) : Host.Outcome State Fault Refusal :=
  .next (whenLive (srvRampDone k.val) s)

/-! ### Temperature -/

/-- THROTTLE (R359, R393). -/
def logThrottle (unit v : Nat) (s : State) : State := logRas { cls := .notice, code := 0x62, unit := unit, info := v } s

/-- A die's temperature taken (R359). -/
def Die.takeTemp (t : Nat) (x : Die) : Die :=
  let b := BitVec.ofNat 8 t
  { x with temp := b, peak := if x.peak < b then b else x.peak }

/-- L_THERM over one millisecond at a temperature (R359), and the times that R360 counts. -/
def Die.thermMs (t : Nat) (x : Die) : Die :=
  let cool := if t < 102 then x.coolMs + 1 else 0
  let rise := cool == 10
  let l : Nat :=
    if 105 ≤ t then max 4 (x.ltherm.toNat / 2)
    else if rise then min 64 (x.ltherm.toNat + 4) else x.ltherm.toNat
  { x with
    ltherm := BitVec.ofNat 7 l
    coolMs := if rise then 0 else cool
    lowMs := if l ≤ 16 then x.lowMs + 1 else 0
    coldMs := if x.steps ≠ 0 ∧ t < 95 then x.coldMs + 1 else 0 }

/-- The temperature of a compute die (R359): its sensors' highest; a stack at 95 °C or more counts as 105 °C. -/
def dieTempOf (sensor : Nat) (near : List Nat) : Nat := if near.any (95 ≤ ·) then max sensor 105 else sensor

/-- One millisecond of thermal control of a compute die. -/
def thermDie (d : Nat) (dieTemps stackTemps : List (BitVec 8)) (ctrl : Bool) (s : State) : State :=
  let t := dieTempOf ((dieTemps.getD (1 + d) 0).toNat) (((stackTemps.drop (3 * d)).take 3).map (·.toNat))
  let old := s.die d
  let x := if ctrl then (old.takeTemp t).thermMs t else old.takeTemp t
  let s := s.setDie d x
  if old.ltherm = 64 ∧ x.ltherm ≠ 64 then logThrottle (unitDie d) x.ltherm.toNat s else s

/-- The hub's ceiling over one millisecond (R359). -/
def thermHub (t : Nat) (ctrl : Bool) (s : State) : State :=
  let h := s.hub
  let b := BitVec.ofNat 8 t
  let cool := if t < 102 then h.coolMs + 1 else 0
  let rise := cool == 10
  let c : Nat :=
    if 105 ≤ t then min 7 (h.srvceil.toNat + 1)
    else if rise then max 2 (h.srvceil.toNat - 1) else h.srvceil.toNat
  let h := { h with temp := b, peak := if h.peak < b then b else h.peak }
  if ctrl then
    let s' := { s with hub := { h with srvceil := BitVec.ofNat 3 c, coolMs := if rise then 0 else cool } }
    let s' := if c = s.hub.srvceil.toNat then s' else forEach (List.range 48) srvSettle s'
    if s.hub.srvceil = 2 ∧ c ≠ 2 then logThrottle 0 c s' else s'
  else { s with hub := h }

/-- A stack's temperature taken, and its refresh rate (R210, "Access size and efficiency"). -/
def thermStack (st : Nat) (t : BitVec 8) (s : State) : State :=
  s.modStack st (fun x => { x with temp := t, ref2x := decide (85 < t.toNat) })

/-- The input monitors' readings (PWR_INPUT), updated every 1 ms; of monitors in an unknown state (R423) free values. -/
def senseInputs (vmain vio : BitVec 16) (vaux : BitVec 12) (s : State) : State :=
  if s.aux.unknown then
    { s.took with pwr := { s.pwr with
        vmain := (Config.freeBits s.free 0).setWidth 16, vio := (Config.freeBits s.free 1).setWidth 16
        vaux := (Config.freeBits s.free 2).setWidth 12 } }
  else { s with pwr := { s.pwr with vmain := vmain, vio := vio, vaux := vaux } }

/-- What VIN_AUX alone keeps live (R346): the monitors and the temperature sensors of the dies, without any control. -/
def senseTick (dieTemps : List (BitVec 8)) (s : State) : State :=
  thermHub ((dieTemps.getD 0 0).toNat) false
    (forEach dieList (fun d s => s.modDie d (Die.takeTemp (dieTemps.getD (1 + d) 0).toNat)) s)

/-- THERMAL_TICK (R359): temperatures of H, C0-C3 and of the stacks; control stands still while its service does (R402). -/
def thermTick (dieTemps stackTemps : List (BitVec 8)) (s : State) : State :=
  let ctrl := !s.z2Still
  let s := forEach (List.range 12) (fun st s => thermStack st (stackTemps.getD st 0) s) s
  let s := forEach dieList (fun d s => thermDie d dieTemps stackTemps ctrl s) s
  thermHub ((dieTemps.getD 0 0).toNat) ctrl s

/-- THERMAL_TICK (R359, R346). -/
def execThermalTick (dieTemps : List (BitVec 8)) (x : Sensed) (s : State) : Host.Outcome State Fault Refusal :=
  .next (
    if s.live then thermTick dieTemps x.stackTemps (senseInputs x.vmain x.vio x.vaux s)
    else if s.pwr.auxV then senseTick dieTemps (senseInputs x.vmain x.vio x.vaux s) else s)

/-- A thermal step down (R360): one point below the one required now, where L_THERM has been at 16 or less for 100 ms. -/
def Die.stepDown (target : BitVec 2) (x : Die) : Die :=
  let at' := pointNeeded target x
  if 100 ≤ x.lowMs ∧ at' < 2 then { x with steps := at' + 1, lowMs := 0 }.startChange target else x

/-- THERMAL_STEP_DOWN (R360). -/
def execThermalStepDown (d : DieId) (s : State) : Host.Outcome State Fault Refusal :=
  .next (whenLive (fun s =>
    if s.fenced d.val || s.z2Still then s else s.modDie d.val (Die.stepDown s.pwr.target)) s)

/-- A thermal step up (R360), after 1 s below 95 °C. -/
def Die.stepUp (target : BitVec 2) (x : Die) : Die :=
  if 1000 ≤ x.coldMs ∧ x.steps ≠ 0 then { x with steps := x.steps - 1, coldMs := 0 }.startChange target else x

/-- THERMAL_STEP_UP (R360). -/
def execThermalStepUp (d : DieId) (s : State) : Host.Outcome State Fault Refusal :=
  .next (whenLive (fun s =>
    if s.fenced d.val || s.z2Still then s else s.modDie d.val (Die.stepUp s.pwr.target)) s)

/-- A write of THERM_Dx (R361): TRIP and its latch cleared, PEAK set to TEMP. -/
def thermWriteOp (x : Nat) (v : Nat) (s : State) : State :=
  let s := if nbit v 25 then { s with aux := { s.aux with trip := setBit s.aux.trip x false } } else s
  if nbit v 26 then
    if x = 0 then { s with hub := { s.hub with peak := s.hub.temp } }
    else s.modDie (x - 1) (fun d => { d with peak := d.temp })
  else s

/-- Whether an origin reaches the whole of BAR0 (R271, R272): PF0, the server cores, the control complex, and threads through
register space. -/
def originFull : Origin → Bool
  | .pf0 => true
  | .core _ _ => true
  | .zoilo _ => true
  | .tile _ => true
  | .hub => true
  | .pf1 => false
  | .vf _ => false

/-- TRIP_CLEAR (R361). -/
def execTripClear (o : Origin) (x : Fin 5) (v : W64) (s : State) : Host.Outcome State Fault Refusal :=
  .next (whenLive (fun s => if originFull o then thermWriteOp x.val v.toNat s else s) s)

/-- CLRPEAK (R361). -/
def execClrpeak (o : Origin) (x : Fin 5) (v : W64) (s : State) : Host.Outcome State Fault Refusal :=
  .next (whenLive (fun s => if originFull o then thermWriteOp x.val v.toNat s else s) s)

end Sys2Proof.Machine
end

