-- ==== Sys2Proof/Machine/Sync.lean ====
section
/-! DEFINITION. Synchronisation objects at their home (R253-R269) and receive windows (R234, R235): signals and waits that
arrive, signal pages and arm slots, value writes, the window table, and requests performed through a window. -/

namespace Sys2Proof.Machine

/-! ### Signals and waits at the home -/

/-- A signal applied (R253, R254); one to a die that has been fenced meanwhile is lost with its object (R268). -/
def applySignal (g : Signal) (s : State) : State :=
  if s.fenced (dieOfObj g.phys) then s
  else
    let v := s.obj g.phys + g.inc
    trace (1 + dieOfObj g.phys) 4 (g.phys + 2 ^ 32 * g.inc.toNat + 2 ^ 64 * v.toNat) (setObj g.phys v s)

/-- Whether a die in test mode keeps a signal from its home (R21, LOG 163). -/
def Signal.held (g : Signal) (s : State) : Bool := s.parted (g.src.map (·.val)) (dieOfObj g.phys)

/-- SIGNAL_APPLY (R253): the n-th signal under way arrives. -/
def execSignalApply (n : Nat) (s : State) : Host.Outcome State Fault Refusal :=
  .next (whenLive (fun s =>
    match s.sync.sigs[n]? with
    | some g => if g.held s then s else applySignal g { s with sync := { s.sync with sigs := dropNth s.sync.sigs n } }
    | none => s) s)

/-- A wait discarded by the loss of its object's die (R268): the kernel of a waiting thread aborts, a queue WAIT completes with
ST_DIE_LOST, an arm slot is LOST; a collective is left without its wait, and ends (Machine/Coll.lean). -/
def loseWait (w : Wait) (s : State) : State :=
  let d := dieOfObj w.phys
  match w.who with
  | .tile t =>
    match s.runKernel t.val with
    | some k => abortKernel k.kid .dieLost (2 ^ d) s
    | none => s
  | .queue q uid => completeCmd q.val uid .dieLost (2 ^ d) 0 s
  | .arm c a => fireArm c.val a.val true s
  | .coll id =>
    { s with eng := { s.eng with colls := s.eng.colls.map (fun c =>
        if c.id = id then { c with st := joinStatus c.st (.dieLost, 2 ^ d), wait := none } else c) } }

/-- A wait at its home (R254): evaluated, else registered; an object of a fenced die is lost. -/
def registerWait (w : Wait) (s : State) : State :=
  if s.fenced (dieOfObj w.phys) then loseWait w s
  else if reached (s.obj w.phys) w.target then deliverWait w (s.obj w.phys) s
  else { s with sync := { s.sync with waits := s.sync.waits ++ [w] } }

/-- Whether a die in test mode keeps a wait from its home (R21). -/
def Wait.held (w : Wait) (s : State) : Bool := s.parted w.who.die? (dieOfObj w.phys)

/-- The n-th wait under way arrives at its home. -/
def arriveWait (n : Nat) (s : State) : State :=
  match s.sync.arrivals[n]? with
  | some w => if w.held s then s else registerWait w { s with sync := { s.sync with arrivals := dropNth s.sync.arrivals n } }
  | none => s

/-- WAIT_RECORD_REGISTER (R267): a blocked thread takes a free wait record of its tile, and its wait is evaluated at the
home at once. On a tile that an abort has stopped the wait has been discarded (R140). -/
def takeWaitRecord (t g l : Nat) (s : State) : State :=
  match (if s.issues t then s.thread? t g l else none) with
  | none => s
  | some th =>
    match th.st with
    | .waiting w =>
      let x := s.tile t
      let mine : TileWait := ⟨w.phys, w.target⟩
      if w.registered || (⟨w.phys, w.target, .tile (Fin.ofNat 96 t)⟩ : Wait).held s then s
      else if x.waits.contains mine then s.modThread t g l (fun th => { th with st := .waiting { w with registered := true } })
      else if 64 ≤ x.waits.length then s
      else
        let s := s.modThread t g l (fun th => { th with st := .waiting { w with registered := true } })
        let s := s.modTile t (fun x => { x with waits := x.waits ++ [mine] })
        registerWait ⟨w.phys, w.target, .tile (Fin.ofNat 96 t)⟩ s
    | _ => s

/-- WAIT_RECORD_REGISTER (R267). -/
def execWaitRecordRegister (t : TileId) (g : Nat) (l : Fin 64) (s : State) : Host.Outcome State Fault Refusal :=
  .next (whenServed (takeWaitRecord t.val g l.val) s)

/-! ### Signal pages and the debug view -/

/-- Whether an origin reaches the signal page of a context (R263): the host through PF0, server cores, the control complex,
threads through register space, and the VF bound to the context. -/
def pageReach (o : Origin) (c : Nat) (s : State) : Bool :=
  match o with
  | .vf n => (s.ctx c).func.toNat == n.val + 1 && (s.ctx c).state != .free
  | o => originFull o

/-- BAR0 offset of a context's signal page (R263). -/
def sigPage (c : Nat) : Nat := 0x510000 + 0x1000 * c

/-- A write of SYNC_CTXc_SIG (R261, R263). -/
def sigWriteOp (o : Origin) (c : Nat) (v : W64) (s : State) : State :=
  if pageReach o c s then
    let r := objLookup 0 c (fld v 19 0) .signal s
    match r.1 with
    | .ok p => postSignal p (BitVec.ofNat 32 (fld v 63 32)) r.2
    | .error _ => logReg (sigPage c) (originReq o) r.2
  else logReg (sigPage c) (originReq o) s

/-- SYNC_CTX_SIG (R263). -/
def execSyncCtxSig (o : Origin) (c : CtxId) (v : W64) (s : State) : Host.Outcome State Fault Refusal :=
  .next (whenServed (sigWriteOp o c.val v) s)

/-- A write of an arm slot (R264): FIRED and LOST cleared, the old wait cancelled, a new one registered where ENABLE is set and the
lookup succeeds; else the write is discarded and logged (R261). -/
def armWriteOp (o : Origin) (c a : Nat) (v : W64) (s : State) : State :=
  let off := sigPage c + 0x100 + 16 * a
  if pageReach o c s then
    let old := Sparse.read {} (s.ctx c).arms a
    let put (en : Bool) (s : State) : State :=
      let arm : Arm := { old with
        vid := BitVec.ofNat 20 (fld v 19 0), enable := en, fired := false, lost := false
        target := BitVec.ofNat 32 (fld v 63 32) }
      s.modCtx c (fun x => { x with arms := Sparse.write {} x.arms a arm })
    if bit v 20 then
      let r := objLookup 0 c (fld v 19 0) .arm s
      match r.1 with
      | .ok p =>
        postWait ⟨p, BitVec.ofNat 32 (fld v 63 32), .arm (Fin.ofNat 64 c) (Fin.ofNat 8 a)⟩ (put true (dropArmWait c a r.2))
      | .error _ => logReg off (originReq o) r.2
    else put false (dropArmWait c a s)
  else logReg off (originReq o) s

/-- ARM_SLOT_WRITE (R264). -/
def execArmSlotWrite (o : Origin) (c : CtxId) (a : Fin 8) (v : W64) (s : State) : Host.Outcome State Fault Refusal :=
  .next (whenServed (armWriteOp o c.val a.val v) s)

/-- A write of SYNC_OBJp_VAL (R269): discarded on a fenced die and where a die in test mode parts the writer from it (R21), else the value is set and its waits evaluated. -/
def objValWriteOp (o : Origin) (p : Nat) (v : W32) (s : State) : State :=
  if originFull o then
    if s.fenced (dieOfObj p) || s.cutOff (originReq o) (dieOfObj p) then s else setObj p v s
  else s

/-- SYNC_OBJ_VAL_WRITE (R269). -/
def execSyncObjValWrite (o : Origin) (p : ObjId) (v : W32) (s : State) : Host.Outcome State Fault Refusal :=
  .next (whenLive (objValWriteOp o p.val v) s)

/-! ### Receive windows -/

/-- A window disabled (R235): no new lookups; DRAIN while accepted requests complete; a latched enable is cancelled. -/
def Window.disable (w : Window) : Window :=
  if w.enable then { w with enable := false, pending := false, drain := decide (w.inflight ≠ 0) }
  else { w with pending := false }

/-- The fields of CTL other than ENABLE as a write gives them. -/
def Window.setFields (w : Window) (v : W64) : Window :=
  { w with node := BitVec.ofNat 20 (fld v 19 0), any := bit v 20, ctx := BitVec.ofNat 6 (fld v 26 21), w := bit v 27,
           r := bit v 28, sig := bit v 29, red := bit v 30 }

/-- BAR0 offset of a window's registers. -/
def winOff (i : Nat) : Nat := 0x610000 + 0x10 * i

/-- A write of XLAT_WINw_CTL (R235). -/
def winCtlOp (o : Origin) (i : Nat) (v : W64) (s : State) : State :=
  if originFull o then
    let w := s.window i
    let en := bit v 31
    if !w.enable && !w.drain then
      -- fields may change; an enable needs a context with tables
      let w' := w.setFields v
      if en && !(s.ctx w'.ctx.toNat).rootV then logReg (winOff i + 8) (originReq o) s
      else s.setWindow i (if en then { w' with enable := true, faults := 0 } else w')
    else
      -- only ENABLE acts; a change of a field is ignored and logged
      let changes := decide (w.setFields v ≠ w)
      let s := if changes then logReg (winOff i + 8) (originReq o) s else s
      if en then
        if w.drain then
          if (s.ctx w.ctx.toNat).rootV then s.setWindow i { w with pending := true, faults := 0 }
          else logReg (winOff i + 8) (originReq o) s
        else s.setWindow i { w with faults := 0 }
      else s.setWindow i w.disable
  else s

/-- WINDOW_CTL_WRITE (R235). -/
def execWindowCtlWrite (o : Origin) (w : WinId) (v : W64) (s : State) : Host.Outcome State Fault Refusal :=
  .next (whenLive (winCtlOp o w.val v) s)

/-- A write of XLAT_WINw_RANGE (R235). -/
def winRangeOp (o : Origin) (i : Nat) (v : W64) (s : State) : State :=
  let w := s.window i
  if w.enable || w.drain then logReg (winOff i) (originReq o) s
  else s.setWindow i { w with base := BitVec.ofNat 36 (fld v 35 0), len := BitVec.ofNat 28 (fld v 63 36) }

/-- WINDOW_DRAIN_END (R235): the accepted requests have completed; a latched enable takes effect. -/
def execWindowDrainEnd (w : WinId) (s : State) : Host.Outcome State Fault Refusal :=
  .next (whenLive (fun s => s.modWindow w.val (fun x =>
    if x.drain ∧ x.inflight = 0 then { x with drain := false, pending := false, enable := x.pending } else x)) s)

/-- REASON of XLAT_WIN_FAULT (R234). -/
def wreasonCode : WReason → Nat
  | .disabled => 0 | .source => 1 | .range => 2 | .perm => 3 | .xlate => 4

/-- What a request through a window does: OP of XLAT_WIN_FAULT. -/
inductive WOp where
  | write | read | signal | reduce
deriving DecidableEq, Repr

/-- The code of an operation. -/
def WOp.code : WOp → Nat
  | .write => 0 | .read => 1 | .signal => 2 | .reduce => 3

/-- Whether a window permits an operation (R234, step 4). -/
def Window.permits (w : Window) (op : WOp) : Bool :=
  match op with
  | .write => w.w | .read => w.r | .signal => w.sig | .reduce => w.red

/-- A refused request: FAULTS counts, the first is recorded (R234). -/
def winFault (i node : Nat) (op : WOp) (r : WReason) (s : State) : State :=
  let s := s.modWindow i (fun w => { w with faults := satAdd w.faults 1 })
  if bit s.net.winFault 63 then s
  else
    let v := i + 2 ^ 12 * node + 2 ^ 32 * wreasonCode r + 2 ^ 35 * op.code + 2 ^ 63
    { s with net := { s.net with winFault := BitVec.ofNat 64 v } }

/-- Steps 1 to 4 of R234; a signal has no range. -/
def winCheck (w : Window) (node : Nat) (op : WOp) (off len : Nat) : Option WReason :=
  if !w.enable then some .disabled
  else if !w.any && w.node.toNat != node then some .source
  else if op != .signal && decide (w.len.toNat * 65536 < off + len) then some .range
  else if !w.permits op then some .perm
  else none

/-- A range of a window translated (R234, step 5): its pieces; a fenced home refuses as XLATE does (R381). -/
def winXlate (rq : Requester) (i : Nat) (wr : Bool) (off len : Nat) (s : State) : Except WReason (List XPiece) × State :=
  let w := s.window i
  let r := xlatRange rq w.ctx.toNat .nodeRx wr (w.base.toNat * 65536 + off) len s
  match r.1.2 with
  | some _ => (.error .xlate, r.2)
  | none =>
    let lost := r.1.1.any (fun p => (unitPieces p.pa p.len).any (fun q =>
      match paKind q.1 with
      | .hbm _ => r.2.fenced (dieOfStack (r.2.home q.1).1)
      | .spad t _ => r.2.fenced (dieOfTile t)
      | _ => false))
    (if lost then .error .xlate else .ok r.1.1, r.2)

/-- The port of node-link receive through a window. -/
def rxPort (rq : Requester) (s : State) (i : Nat) (coh : Bool) : Port :=
  ⟨rq, (s.ctx (s.window i).ctx.toNat).func.toNat, .streaming, coh⟩

/-- The end of a request through a window. -/
def winEnd (i node : Nat) (op : WOp) (r : WReason) (s : State) : Except WReason (List PB) × State :=
  (.error r, winFault i node op r s)

/-- The reductions that a frame can carry (R206, R187). -/
def redOf (op fmt : Nat) : Option (RedOp × RedFmt) :=
  match redOpOf op, redFmtOf fmt with
  | some o, some f => if redFmtFloat f && o != .add then none else some (o, f)
  | _, _ => none

/-- A WRITE or REDUCE_WRITE through a window (R234, R317). -/
def winStore (rq : Requester) (i node off : Nat) (data : List PB) (red : Option (RedOp × RedFmt)) (s : State) :
    Except WReason (List PB) × State :=
  let op : WOp := if red.isSome then .reduce else .write
  match winCheck (s.window i) node op off data.length with
  | some r => winEnd i node op r s
  | none =>
    let x := winXlate rq i true off data.length s
    match x.1 with
    | .error r => winEnd i node op r x.2
    | .ok ps =>
      -- a reduce-write needs HBM; elsewhere it is refused as R331 states
      if red.isSome && ps.any (fun p => !hbmVisible p.pa) then winEnd i node op .perm x.2
      else
        let s := forEach ps (fun p s =>
          let part := (data.drop p.off).take p.len
          match red with
          | some (o, f) => (memReduce (rxPort rq s i p.coh) o f p.pa part s).2
          | none => (memWrite (rxPort rq s i p.coh) p.pa part s).2) x.2
        (.ok [], s)

/-- A READ through a window. -/
def winLoad (rq : Requester) (i node off len : Nat) (s : State) : Except WReason (List PB) × State :=
  match winCheck (s.window i) node .read off len with
  | some r => winEnd i node .read r s
  | none =>
    let x := winXlate rq i false off len s
    match x.1 with
    | .error r => winEnd i node .read r x.2
    | .ok ps =>
      let r := ps.foldl (fun (acc : List PB × State) p =>
        let r := memRead (rxPort rq acc.2 i p.coh) p.pa p.len acc.2
        (acc.1 ++ r.1.data, r.2)) (([] : List PB), x.2)
      (.ok r.1, r.2)

/-- The object that a SIGNAL through a window names (R262): the lookup of its VID in the window's context takes the place of steps 3 and
5; the SIG right of step 4 comes before it (LOG 167). -/
def winObject (i node vid : Nat) (s : State) : Except WReason Nat × State :=
  let refuse (r : WReason) (s : State) : Except WReason Nat × State := (.error r, winFault i node .signal r s)
  match winCheck (s.window i) node .signal 0 0 with
  | some r => refuse r s
  | none =>
    let r := objLookup 0 (s.window i).ctx.toNat vid .remote s
    match r.1 with
    | .ok p => (.ok p, r.2)
    | .error _ => refuse .xlate r.2

/-- A SIGNAL through a window performed at its object's home (R262, R317); one that a die in test mode keeps from it waits
(R21). The SIG right comes before the lookup (LOG 167). -/
def winSignal (i node vid : Nat) (inc : W32) (s : State) : Except WReason (List PB) × State :=
  let r := winObject i node vid s
  match r.1 with
  | .ok p =>
    let g : Signal := ⟨p, inc, none⟩
    (.ok [], if g.held r.2 then postSignal p inc r.2 else applySignal g r.2)
  | .error w => (.error w, r.2)

end Sys2Proof.Machine
end

