-- ==== Sys2Proof/Machine/Wire.lean ====
section
/-! DEFINITION. The bytes on the wire: transport frames (R316), NL link headers and CRC (R327), transport packets on Ethernet (R322,
R325), and what a received packet says of itself (R326). -/

namespace Sys2Proof.Machine

/-- CRC-32 of IEEE 802.3. -/
def crc32 (bs : List Byte) : Nat := crcRefl 0xEDB88320 0xFFFFFFFF bs

/-! ### Transport frames -/

/-- The 32 B transport header (R316), little-endian, reserved bits 0. -/
def headerBytes (f : Frame) : List Byte :=
  toBytes (1 + 2 ^ 4 * f.cls.toNat + 2 ^ 6 * b2n f.poison + 2 ^ 7 * b2n f.ece) 1 ++ [f.typ] ++ toBytes f.payload.length 2 ++
    toBytes (2 ^ 12 * f.src.toNat) 4 ++ toBytes (f.win.toNat + 2 ^ 12 * f.dst.toNat) 4 ++ toBytes f.psn.toNat 4 ++
    toBytes f.arg.toNat 8 ++ toBytes f.incarn.toNat 2 ++ toBytes (f.redOp.toNat + 2 ^ 2 * f.redFmt.toNat) 1 ++ [0] ++
    toBytes f.arg2.toNat 4

/-- The ICRC of a frame: CRC-32C over header and payload (R316). -/
def frameIcrc (f : Frame) : Nat := crc32c (headerBytes f ++ f.payload)

/-- A transport frame: header, payload, ICRC trailer (R316). -/
def transportBytes (f : Frame) : List Byte := headerBytes f ++ f.payload ++ toBytes (frameIcrc f) 4

/-! ### The NL link -/

/-- A link header (R327). -/
def linkHeader (lseq ackseq : Nat) (nak : Bool) (ccls credits : Nat) : Nat :=
  lseq % 2 ^ 12 + 2 ^ 12 * (ackseq % 2 ^ 12) + 2 ^ 24 * b2n nak + 2 ^ 28 * (ccls % 4) + 2 ^ 32 * (credits % 2 ^ 16)

/-- A link control frame: the link header and its CRC-32 (R327). -/
def controlBytes (hdr : Nat) : List Byte := toBytes hdr 8 ++ toBytes (crc32 (toBytes hdr 8)) 4

/-- A transport frame on an NL quad: link header in front, CRC-32 over both behind (R327). -/
def nlBytes (hdr : Nat) (f : Frame) : List Byte :=
  let b := toBytes hdr 8 ++ transportBytes f
  b ++ toBytes (crc32 b) 4

/-! ### Internet headers -/

/-- A big-endian 16-bit field of a packet. -/
def be16At (p : List Byte) (o : Nat) : Nat := 256 * (p.getD o 0).toNat + (p.getD (o + 1) 0).toNat

/-- 16 bits in network order. -/
def be16 (v : Nat) : List Byte := [BitVec.ofNat 8 (v / 256), BitVec.ofNat 8 v]

/-- The sum of the 16-bit words of some bytes, an odd one padded with zero. -/
def sumWords : List Byte → Nat
  | [] => 0
  | [a] => 256 * a.toNat
  | a :: b :: r => 256 * a.toNat + b.toNat + sumWords r

/-- The Internet checksum: the complement of the ones' complement sum. -/
def inetSum (l : List Byte) : Nat :=
  let n := sumWords l
  65535 - (if n = 0 then 0 else (n - 1) % 65535 + 1)

/-! ### Transport packets on Ethernet -/

/-- The CRC-32C that spreads a frame over the fabric's paths (R325). -/
def entropy (f : Frame) : Nat := crc32c (Config.entropyInput f.src f.dst f.cls (f.psn.toNat / 16))

/-- The UDP datagram of a frame, its checksum field as given (R325). -/
def udpDatagram (port sum : Nat) (f : Frame) : List Byte :=
  let b := transportBytes f
  be16 (49152 + entropy f % 16384) ++ be16 port ++ be16 (8 + b.length) ++ be16 sum ++ b

/-- The IPv4 packet of a frame (R325): no options, DF, TTL 64, ECT(0) (R322), UDP checksum 0. -/
def ip4Packet (port dscp : Nat) (src dst : List Byte) (f : Frame) : List Byte :=
  let udp := udpDatagram port 0 f
  let hdr (sum : Nat) : List Byte :=
    [0x45, BitVec.ofNat 8 (4 * dscp + 2)] ++ be16 (20 + udp.length) ++ be16 (Config.ipIdent f.psn).toNat ++ be16 0x4000 ++ [64, 17] ++
      be16 sum ++ src ++ dst
  hdr (inetSum (hdr 0)) ++ udp

/-- The IPv6 packet of a frame (R325): no extension headers, hop limit 64, ECT(0) (R322), flow label and UDP checksum. -/
def ip6Packet (port dscp : Nat) (src dst : List Byte) (f : Frame) : List Byte :=
  let n := (udpDatagram port 0 f).length
  let c := inetSum (src ++ dst ++ be16 0 ++ be16 n ++ be16 0 ++ be16 17 ++ udpDatagram port 0 f)
  let cls := 4 * dscp + 2
  let first := 6 * 2 ^ 28 + cls * 2 ^ 20 + entropy f % 2 ^ 20
  be16 (first / 2 ^ 16) ++ be16 (first % 2 ^ 16) ++ be16 n ++ [17, 64] ++ src ++ dst ++ udpDatagram port (if c = 0 then 0xFFFF else c) f

/-- The packet that carries a frame (R325): from quad `q`, to the next hop of the receiver's address-table entry `dest`, from the address
of the own entry `own` and in its IP version (R324); the 802.1Q tag `vlan` with priority 0, or none. -/
def ethPacket (q port dscp : Nat) (vlan : Option Nat) (own dest : List Byte) (f : Frame) : List Byte :=
  let v6 := nbit (leAt own 0 1) 1
  let addr (e : List Byte) : List Byte := if v6 then (e.drop 16).take 16 else (e.drop 28).take 4
  let tag := match vlan with
    | some v => be16 0x8100 ++ be16 v
    | none => []
  (dest.drop 4).take 6 ++ toBytes (Config.quadMac q).toNat 6 ++ tag ++ be16 (if v6 then 0x86DD else 0x0800) ++
    (if v6 then ip6Packet port dscp (addr own) (addr dest) f else ip4Packet port dscp (addr own) (addr dest) f)

/-! ### What a received packet says of itself -/

/-- Where the network header of a packet starts: behind an 802.1Q tag or none. -/
def netOff (p : List Byte) : Nat := if be16At p 12 = 0x8100 then 18 else 14

/-- What an IP packet holds: its version, where its segment starts and ends, its protocol, its addresses, and whether it is a
fragment. -/
structure IpView where
  v6    : Bool
  seg   : Nat
  stop  : Nat
  proto : Nat
  src   : List Byte
  dst   : List Byte
  frag  : Bool
deriving DecidableEq, Repr

/-- A packet as IP, where it is. -/
def ipView (p : List Byte) : Option IpView :=
  let o := netOff p
  if be16At p (o - 2) = 0x0800 ∧ o + 20 ≤ p.length then
    some { v6 := false, seg := o + 4 * ((p.getD o 0).toNat % 16), stop := o + be16At p (o + 2), proto := (p.getD (o + 9) 0).toNat
           src := (p.drop (o + 12)).take 4, dst := (p.drop (o + 16)).take 4, frag := be16At p (o + 6) % 0x4000 != 0 }
  else if be16At p (o - 2) = 0x86DD ∧ o + 40 ≤ p.length then
    some { v6 := true, seg := o + 40, stop := o + 40 + be16At p (o + 4), proto := (p.getD (o + 6) 0).toNat
           src := (p.drop (o + 8)).take 16, dst := (p.drop (o + 24)).take 16, frag := false }
  else none

/-- Whether a packet is UDP to a port (R326). -/
def udpTo (p : List Byte) (v : IpView) (port : Nat) : Bool := v.proto == 17 && !v.frag && be16At p (v.seg + 2) == port

/-- Whether a packet is addressed to the address of an address-table entry (R324). -/
def addressedTo (v : IpView) (e : List Byte) : Bool :=
  v.v6 == nbit (leAt e 0 1) 1 && v.dst == (if v.v6 then (e.drop 16).take 16 else (e.drop 28).take 4)

/-- Whether the TCP or UDP checksum of a packet holds: a zero one of UDP over IPv4 is accepted (R326). -/
def segSumGood (p : List Byte) (v : IpView) : Bool :=
  let n := v.stop - v.seg
  if v.frag || !(v.proto == 6 || v.proto == 17) then true
  else if !v.v6 && v.proto == 17 && be16At p (v.seg + 6) == 0 then true
  else inetSum (v.src ++ v.dst ++ be16 v.proto ++ be16 n ++ (p.drop v.seg).take n) == 0

/-- Whether the checksums of an IP packet hold: that of an IPv4 header, and its segment's. -/
def sumsGood (p : List Byte) (v : IpView) : Bool :=
  (v.v6 || inetSum ((p.drop (netOff p)).take (v.seg - netOff p)) == 0) && segSumGood p v

/-- The CRC-32C that chooses a receive ring (R326): of the IP addresses and ports, as they stand in the packet. -/
def ringHash (p : List Byte) : Nat :=
  match ipView p with
  | none => crc32c []
  | some v =>
    let ports := if (v.proto == 6 || v.proto == 17) && !v.frag then (p.drop v.seg).take 4 else []
    crc32c (v.src ++ v.dst ++ ports)

end Sys2Proof.Machine
end

