-- ==== Sys2Proof/Machine/Net.lean ====
section
/-! DEFINITION. The transport (R313-R327): quads and the NL link layer, routes, requests sent and answered, frames received.
What an answer or a lost peer means to the operation behind a request stands in Machine/NetEnd.lean. -/

namespace Sys2Proof.Machine

/-! ### The NL link layer -/

/-- Credit units of a frame (R327). -/
def frameUnits (f : Frame) : Nat := ceilDiv (36 + f.payload.length) 256

/-- Bytes a frame takes in the replay buffer: link header, header, payload, ICRC, link CRC (R316, R327). -/
def frameBytes (f : Frame) : Nat := 48 + f.payload.length

/-- Whether a frame may leave a quad now: credits and room in the 256 KiB replay buffer (R327). -/
def Quad.fits (x : Quad) (f : Frame) : Bool :=
  decide (frameUnits f ≤ x.credits.getD f.cls.toNat 0) &&
    decide ((x.replayBuf.map (fun e => frameBytes e.2.2)).sum + frameBytes f ≤ 262144)

/-- A frame put on an NL quad: numbered, kept for replay, its credits taken (R327). -/
def Quad.put (x : Quad) (typ : Nat) (f : Frame) : Quad :=
  { x with lseq := x.lseq + 1, replayBuf := x.replayBuf ++ [((x.lseq + 1).toNat, typ, f)]
           credits := x.credits.modify f.cls.toNat (· - frameUnits f) }

/-- The next waiting frame that may leave, and those that stay (R327): in order within a class; a class without credits holds up no
other. -/
def Quad.pick (x : Quad) (blocked : List (BitVec 2)) : List (Nat × Frame) → Option ((Nat × Frame) × List (Nat × Frame))
  | [] => none
  | e :: r =>
    if blocked.contains e.2.cls || !x.fits e.2 then (x.pick (e.2.cls :: blocked) r).map (fun p => (p.1, e :: p.2))
    else some (e, r)

/-- A frame on the wire of an NL quad, behind a link header with the quad's ACKSEQ (R327). -/
def emitNl (q lseq : Nat) (f : Frame) (s : State) : State :=
  s.emit (.frame (Fin.ofNat 16 q) (nlBytes (linkHeader lseq (s.quad q).ackseq.toNat false 0 0) f))

/-- A link control frame (R327): ACKSEQ, a NAK, credits returned for a class. -/
def emitControl (q : Nat) (nak : Bool) (cls units : Nat) (s : State) : State :=
  let x := s.quad q
  s.emit (.frame (Fin.ofNat 16 q) (controlBytes (linkHeader x.lseq.toNat x.ackseq.toNat nak cls units)))

/-- Frames that wait for credits or buffer leave while they fit (R327). -/
def flushQuad (q : Nat) : Nat → State → State
  | 0, s => s
  | n + 1, s =>
    let x := s.quad q
    match (if x.state = 2 then x.pick [] x.waitq else none) with
    | none => s
    | some ((typ, f), rest) =>
      let y := { x with waitq := rest }.put typ f
      flushQuad q n (emitNl q y.lseq.toNat f (s.setQuad q y))

/-- A quad leaves service to train again: frames of its replay buffer are discarded (R327). -/
def Quad.retrain (x : Quad) : Quad :=
  { x with state := 1, lanes := 0, half := false, peerv := false, peer := 0, replayBuf := [], lseq := 0, ackseq := 0,
           acked := 0, inRow := 0 }

/-- A replay (R327): every unacknowledged frame again; after 16 in a row without progress the quad retrains. -/
def replayQuad (q : Nat) (s : State) : State :=
  let x := s.quad q
  if x.state ≠ 2 ∨ x.replayBuf.isEmpty then s
  else if 16 ≤ x.inRow then s.setQuad q x.retrain
  else
    let s := s.setQuad q { x with replays := satAdd x.replays 1, inRow := x.inRow + 1 }
    forEach x.replayBuf (fun e s => emitNl q e.1 e.2.2 s) s

/-- NL_REPLAY (R327): a link NAK, or 2 µs without an acknowledgement; first the errors found in its frames (R388). -/
def execNlReplay (q : QuadId) (_nak : Bool) (lost : List (Nat × Bool)) (s : State) : Host.Outcome State Fault Refusal :=
  .next (whenLive (fun s =>
    if (s.quad q.val).role = 1 then replayQuad q.val (forEach lost (fun e => replayFlaw q.val e.1 e.2) s) else s) s)

/-- What a received ACKSEQ acknowledges: the frames up to it, in order (R327). -/
def Quad.acknowledge (x : Quad) (seq : Nat) : Quad :=
  match x.replayBuf.findIdx? (fun e => e.1 == seq) with
  | some i => { x with replayBuf := x.replayBuf.drop (i + 1), acked := BitVec.ofNat 12 seq, inRow := 0 }
  | none => x

/-- A link header received, alone or in front of a frame (R327): acknowledgement, credits, and a NAK's replay. -/
def linkControl (q : Nat) (hdr : W64) (s : State) : State :=
  let x := s.quad q
  if x.role = 1 ∧ x.state = 2 then
    let x := x.acknowledge (fld hdr 23 12)
    let x := { x with credits := x.credits.modify (fld hdr 29 28) (· + fld hdr 47 32) }
    let s := s.setQuad q x
    let s := if bit hdr 24 then replayQuad q s else s
    flushQuad q ((s.quad q).waitq.length) s
  else s

/-- LINK_CONTROL_FRAME (R327). -/
def execLinkControlFrame (q : QuadId) (hdr : W64) (s : State) : Host.Outcome State Fault Refusal :=
  .next (whenLive (linkControl q.val hdr) s)

/-- Frames dropped for a failed CRC, or for want of a source address, are counted (R317, R324). -/
def countDrop (q : Nat) (s : State) : State := s.modQuad q (fun x => { x with drops := satAdd x.drops 1 })

/-- A frame received on an NL quad (R327): one whose link CRC fails is dropped, counted and answered by a NAK; its link header acts; the
next in sequence is taken, its buffer units go back at once; one received before is acknowledged again, one beyond a gap answered by a
NAK (LOG 149). -/
def linkTake (f : Frame) (s : State) : Bool × State :=
  let q := f.quad.val
  if !f.crcOk then (false, emitControl q true 0 0 (countDrop q s))
  else
    let s := linkControl q f.link s
    let x := s.quad q
    let seq : BitVec 12 := BitVec.ofNat 12 (fld f.link 11 0)
    if x.state ≠ 2 then (false, s)
    else if seq = x.ackseq + 1 then
      (true, emitControl q false f.cls.toNat (frameUnits f) (s.setQuad q { x with ackseq := seq }))
    else (false, emitControl q (decide ((x.ackseq - seq).toNat ≥ 2048)) 0 0 s)

/-! ### Training -/

/-- The credits that each end advertises at training (R318, R327): the class buffering in 256 B units. -/
def classCredits : List Nat := [256, 1024, 512, 64]

/-- The state of an NL quad after training (R313). -/
def Quad.trainNl (x : Quad) (r : QuadTrain) (own : BitVec 20) : Quad :=
  let full := r.lanes == 15
  let half := bit r.lanes 0 && bit r.lanes 1 || bit r.lanes 2 && bit r.lanes 3
  let y := { x.retrain with lanes := r.lanes, credits := classCredits }
  if !(full || half) then { y with state := 3 }
  else if r.peer = 0 ∨ r.peer = own then { y with state := 3 }
  else { y with state := 2, half := !full, peerv := true, peer := r.peer }

/-- The other quad of a pair Q2k, Q2k+1. -/
def mateQuad (q : Nat) : Nat := if q % 2 = 0 then q + 1 else q - 1

/-- A quad after training (R313): one that comes out FAILED is logged. -/
def settleQuad (q : Nat) (y : Quad) (s : State) : State :=
  let x := s.quad q
  let s := s.setQuad q y
  if y.state = 3 ∧ x.state ≠ 3 then logRas { cls := .degraded, code := 0x34, unit := unitQuad q, info := 3 } s else s

/-- Half of an 8-lane port trains (R311, R436): the port is UP once every lane of both quads has trained, and FAILED where one has not; until
the other half has trained too the port stays as it was. -/
def trainPort (q : Nat) (r : QuadTrain) (s : State) : State :=
  let x := { s.quad q with lanes := r.lanes }
  let y := s.quad (mateQuad q)
  if r.lanes ≠ 15 then settleQuad (mateQuad q) { y with state := 3 } (settleQuad q { x with state := 3 } s)
  else if y.lanes = 15 then settleQuad (mateQuad q) { y with state := 2 } (settleQuad q { x with state := 2 } s)
  else settleQuad q { x with state := if x.state = 3 then 3 else 1 } s

/-- A quad trains (R313). -/
def trainQuad (q : Nat) (r : QuadTrain) (s : State) : State :=
  let x := s.quad q
  if !s.pwr.serdesPll || x.role == 0 then s
  else if x.role = 3 then trainPort q r s
  else
    let y := if x.role = 1 then x.trainNl r s.net.nodeId
      else { x with lanes := r.lanes, state := if r.lanes = 15 then 2 else 3 }
    flushQuad q (y.waitq.length) (settleQuad q y s)

/-- QUAD_TRAINING (R313): at reset and after every link failure; on a quad that is UP it follows such a failure. -/
def execQuadTraining (q : QuadId) (r : QuadTrain) (s : State) : Host.Outcome State Fault Refusal :=
  .next (whenLive (fun s => if (s.quad q.val).state ≠ 3 then trainQuad q.val r s else s) s)

/-- QUAD_TRAIN_RETRY (R313): a FAILED quad tries again. -/
def execQuadTrainRetry (q : QuadId) (r : QuadTrain) (s : State) : Host.Outcome State Fault Refusal :=
  .next (whenLive (fun s => if (s.quad q.val).state = 3 then trainQuad q.val r s else s) s)

/-! ### The address table -/

/-- Entries that the cache of the address table holds (R324). -/
def atCacheSize : Nat := 256

/-- The address-table entry of a node with V = 1 (R324): from the cache, else read; poison and a fenced home count as V = 0 and
are logged. -/
def addrEntry (node : Nat) (s : State) : Option (List Byte) × State :=
  if !s.net.atValid || decide (2 ^ s.net.atSize.toNat ≤ node) then (none, s)
  else
    match Sparse.find? s.net.atCache node with
    | some e => (some e, s)
    | none =>
      let pa := s.net.atBase.toNat * 4096 + 32 * node
      let r := memRead (hubPort 0) pa 32 s
      if r.1.met.dies ≠ 0 then (none, logDieAccess .hub pa r.2)
      else if r.1.met.poison then
        (none, logRas { cls := .contained, code := 0x20, unit := 0, addr := pa, info := 8 } r.2)
      else
        let e := plain r.1.data
        if nbit (leAt e 0 1) 0 then
          let c := if s.net.atCache.length < atCacheSize then r.2.net.atCache else r.2.net.atCache.drop 1
          (some e, { r.2 with net := { r.2.net with atCache := Sparse.insert c node e } })
        else (none, r.2)

/-- Whether transport over Ethernet is possible: FEAT_NL_UDP accepted and a source address (R323, R324). -/
def ethTransport (s : State) : Bool × State :=
  if s.glb.drvAccept.getLsbD 3 then
    let r := addrEntry s.net.nodeId.toNat s
    (r.1.isSome, r.2)
  else (false, s)

/-- A write of NET_ADDRTAB (R324). -/
def addrtabOp (v : W64) (s : State) : State :=
  let n := s.net
  { s with net := { n with
      atValid := bit v 0
      atSize := if 4 ≤ fld v 5 1 ∧ fld v 5 1 ≤ 20 then BitVec.ofNat 5 (fld v 5 1) else n.atSize
      atBase := BitVec.ofNat 36 (fld v 47 12)
      atCache := if bit v 6 then [] else n.atCache } }

/-- ADDRTAB_INV (R324). -/
def execAddrtabInv (o : Origin) (v : W64) (s : State) : Host.Outcome State Fault Refusal :=
  .next (whenLive (fun s => if originFull o then addrtabOp v s else s) s)

/-- The quad that stands for the port of a quad: the even one of an 8-lane port (R436). -/
def portQuad (q : Nat) (s : State) : Nat := if (s.quad q).role = 3 then q - q % 2 else q

/-- A transport frame put on an Ethernet quad in its packet (R325); without a source address, or without an entry of the receiver, none
leaves (R324). -/
def sendPacket (q : Nat) (f : Frame) (s : State) : State :=
  let own := ethTransport s
  if !own.1 then own.2
  else
    let me := addrEntry s.net.nodeId.toNat own.2
    let hop := addrEntry f.dst.toNat me.2
    match me.1, hop.1 with
    | some m, some t =>
      let vlan := if s.net.vlanen then some s.net.vlan.toNat else none
      let dscp := fld s.net.dscp (6 * f.cls.toNat + 5) (6 * f.cls.toNat)
      let q := portQuad q s
      hop.2.emit (.frame (Fin.ofNat 16 q) (ethPacket q s.net.port.toNat dscp vlan m t f))
    | _, _ => hop.2

/-- A transport record of the negative (R415): type, class, quad, PSN, peer. -/
def frameRecord (q : Nat) (f : Frame) (peer : BitVec 20) : Nat :=
  f.typ.toNat + 2 ^ 8 * f.cls.toNat + 2 ^ 16 * q + 2 ^ 32 * f.psn.toNat + 2 ^ 64 * peer.toNat

/-- A frame sent on a quad: an NL quad's waits for credits and buffer. The first one sent locks NODE_ID (R314, R327). -/
def sendOn (q typ : Nat) (f : Frame) (s : State) : State :=
  let f := { f with typ := BitVec.ofNat 8 typ }
  let s := { s with net := { s.net with nodeLock := true } }
  let s := trace 0 6 (frameRecord q f f.dst) (pmcAdd 0 3 1 s)
  if (s.quad q).role = 1 then
    flushQuad q ((s.quad q).waitq.length + 1) (s.modQuad q (fun x => { x with waitq := x.waitq ++ [(typ, f)] }))
  else sendPacket q f s

/-! ### Routes -/

/-- The NL quads that are UP with a peer. -/
def nlQuads (s : State) (dst : Nat) : List Nat :=
  (List.range 16).filter (fun q =>
    let x := s.quad q
    x.role == 1 && x.state == 2 && x.peerv && x.peer.toNat == dst)

/-- The UP Ethernet quads that an entry names (R324): an 8-lane port once, by either of its quads (R436). -/
def ethQuads (s : State) (e : List Byte) : List Nat :=
  (List.range 16).filter (fun q =>
    (nbit (leAt e 10 2) q || (s.quad q).role == 3 && nbit (leAt e 10 2) (mateQuad q)) && portQuad q s == q &&
      2 ≤ (s.quad q).role.toNat && (s.quad q).state == 2)

/-- The path of a request to another node (R323): an NL quad in turn, an Ethernet quad by hash, or none; a module without a node ID
sends nothing (R314). -/
def pathOf (dst psn : Nat) (s : State) : Option Nat × State :=
  match (if s.net.nodeId = 0 then none else some (nlQuads s dst)) with
  | none => (none, s)
  | some [] =>
    let e := ethTransport s
    if e.1 then
      let r := addrEntry dst e.2
      match r.1 with
      | none => (none, r.2)
      | some ent =>
        let qs := ethQuads r.2 ent
        (qs[Config.routeHash dst psn % qs.length]?, r.2)
    else (none, e.2)
  | some qs => (qs[s.net.rr % qs.length]?, { s with net := { s.net with rr := s.net.rr + 1 } })

/-- A request put on its path; without one it waits (R323). -/
def transmit (dst : Nat) (r : NetReq) (s : State) : State :=
  let p := pathOf dst r.psn.toNat s
  match p.1 with
  | some q => sendOn q r.typ { r.frame with quad := Fin.ofNat 16 q } p.2
  | none => p.2

/-! ### Requests -/

/-- Frame types (R316). -/
def tWrite : Nat := 0x01
def tRead : Nat := 0x02
def tSignal : Nat := 0x03
def tReduce : Nat := 0x04
def tReadResp : Nat := 0x08
def tAck : Nat := 0x09
def tNak : Nat := 0x0A
def tAbort : Nat := 0x0B
def tBudget : Nat := 0x10

/-- A blank frame of this module to a node in a class (R316). -/
def frameTo (dst cls : Nat) (s : State) : Frame :=
  { quad := 0, crcOk := true, link := 0, typ := 0, ce := false, cls := BitVec.ofNat 2 cls, poison := false, ece := false, src := s.net.nodeId,
    dst := BitVec.ofNat 20 dst, win := 0, psn := 0, arg := 0, incarn := s.net.incarn, redOp := 0, redFmt := 0, arg2 := 0,
    payload := [], icrc := 0 }

/-- The requests that may be unanswered at a receiver (R315): 4,096 on NL routes, the adjusted WIN on Ethernet. -/
def winOf (dst : Nat) (s : State) : Nat := if (nlQuads s dst).isEmpty then (s.peer dst).win else 4096

/-- Whether the request at a place of the unanswered ones may be on its way (R315, R318): inside the window, and a SIGNAL
behind no earlier write of its class. -/
def mayLeave (win : Nat) (p : Peer) (i : Nat) : Bool :=
  match p.reqs[i]? with
  | none => false
  | some r =>
    decide (i < win) &&
      (r.typ != tSignal ||
        !((p.reqs.take i).any (fun e => (e.typ == tWrite || e.typ == tReduce) && e.frame.cls == r.frame.cls)))

/-- Held requests that may leave now are sent (R315, R318). -/
def releaseReqs (dst : Nat) (s : State) : State :=
  forEach (List.range (s.peer dst).reqs.length) (fun i s =>
    let p := s.peer dst
    match p.reqs[i]? with
    | some r =>
      if r.held && mayLeave (winOf dst s) p i then
        transmit dst r (s.setPeer dst { p with reqs := p.reqs.set i { r with held := false } })
      else s
    | none => s) s

/-- How a request stands after it was issued. -/
inductive SendRes where
  | sent
  | answered (data : List PB)
  | refused (reason : Nat)
  | lost
deriving DecidableEq, Repr

/-- A request performed through this module's own windows (R257, R323). -/
def selfReq (typ : Nat) (f : Frame) (s : State) : SendRes × State :=
  let node := s.net.nodeId.toNat
  let data : List PB := f.payload.map (fun b => (b, f.poison))
  let r : Except WReason (List PB) × State :=
    if typ = tWrite then winStore .hub f.win.toNat node f.arg.toNat data none s
    else if typ = tReduce then
      winStore .hub f.win.toNat node f.arg.toNat data (redOf f.redOp.toNat f.redFmt.toNat) s
    else if typ = tRead then winLoad .hub f.win.toNat node f.arg.toNat f.arg2.toNat s
    else if typ = tSignal then winSignal f.win.toNat node (fld f.arg 19 0) (BitVec.ofNat 32 (fld f.arg 63 32)) s
    else (.ok [], s)
  match r.1 with
  | .ok d => (.answered d, r.2)
  | .error w => (.refused (wreasonCode w), r.2)

/-- A request issued to a node (R315, R318, R320, R323): performed here for the own node, refused at once for a lost one, else
numbered and sent or held. -/
def sendReq (dst : Nat) (owner : NetOwner) (typ : Nat) (f : Frame) (s : State) : SendRes × State :=
  if dst = s.net.nodeId.toNat then selfReq typ f s
  else
    let p := s.peer dst
    if p.lost then (.lost, s)
    else
      let r : NetReq := ⟨p.nextPsn, typ, { f with psn := p.nextPsn, src := s.net.nodeId }, 0, owner, true⟩
      (.sent, releaseReqs dst (s.setPeer dst { p with nextPsn := p.nextPsn + 1, reqs := p.reqs ++ [r] }))

/-- A node declared lost (R320): its requests end; their owners are returned. -/
def declareLost (node : Nat) (s : State) : List NetOwner × State :=
  let p := s.peer node
  (p.reqs.map (·.owner), s.setPeer node { p with lost := true, reqs := [] })

/-- The window of a receiver after an answer (R322): halved by ECE at most once per 8 µs, grown after a full window without it. -/
def Peer.congestion (p : Peer) (ece : Bool) (now : W64) : Peer :=
  if ece then
    let soon : Bool := match p.halved with
      | some t => decide ((now - t).toNat < 800)
      | none => false
    if soon then p else { p with win := max 16 (p.win / 2), grown := 0, halved := some now }
  else if p.win ≤ p.grown + 1 then { p with win := min 4096 (p.win + 1), grown := 0 }
  else { p with grown := p.grown + 1 }

/-- Requests of a node answered: those a test names leave, the window follows, held ones may go. -/
def takeAnswered (node : Nat) (eth ece : Bool) (t : NetReq → Bool) (s : State) : List NetReq × State :=
  let p := s.peer node
  let l := p.reqs.filter (fun r => !r.held && t r)
  let p := { p with reqs := p.reqs.filter (fun r => r.held || !t r) }
  let p := if eth then l.foldl (fun p _ => p.congestion ece s.hub.tel) p else p
  (l, releaseReqs node (s.setPeer node p))

/-! ### Frames received -/

/-- A sender's incarnation against the one held (R321). -/
inductive Age where
  | older | same | newer
deriving DecidableEq, Repr

/-- The comparison of R321. -/
def incarnAge (held : Option (BitVec 16)) (i : BitVec 16) : Age :=
  match held with
  | none => .newer
  | some h =>
    if i = h then .same
    else if (h - i).toNat ≤ 2 ^ 15 then .older
    else .newer

/-- Step 1 of R317 with R314, R316 and R323: whether a frame is taken at all, `t` being its TYPE in the row. -/
def rxTake (t : Nat) (f : Frame) (s : State) : Bool × State :=
  let q := f.quad.val
  let x := s.quad q
  if x.state ≠ 2 ∨ x.role = 0 then (false, s)
  else
    let l := if x.role = 1 then linkTake f s else if f.crcOk then (true, s) else (false, countDrop q s)
    if !l.1 then l
    else if f.icrc.toNat ≠ frameIcrc f then (false, countDrop q l.2)
    else if s.net.nodeId = 0 then (false, l.2)
    else
      let e := if x.role = 1 then (true, l.2) else ethTransport l.2
      if e.1 then (f.dst == s.net.nodeId && f.typ.toNat == t, e.2) else (false, countDrop q e.2)

/-- A sender's state at a newer incarnation (R320, R321): the receiver's record starts afresh, the lost state ends. -/
def Peer.restart (p : Peer) (i : BitVec 16) (first : W32) : Peer :=
  { p with heldIncarn := some i, oldest := first, done := [], lost := false }

/-- Grants received from a node leave R (R368): it is lost, or shows a newer incarnation. -/
def dropGrants (node : Nat) (s : State) : State :=
  modPwr (fun p => { p with recv := p.recv.filter (fun g => g.peer != node) }) s

/-- A sender that shows a newer incarnation (R321): its record starts afresh, its grants and their IDs are gone (R368, R367). -/
def newIncarn (node : Nat) (i : BitVec 16) (first : W32) (s : State) : State :=
  let s := dropGrants node (s.modPeer node (fun p => p.restart i first))
  { s with pwr := { s.pwr with seen := s.pwr.seen.filter (fun e => e.1 != node) } }

/-- The oldest unperformed PSN after one more has been performed. -/
def advance (done : List W32) : Nat → W32 → List W32 × W32
  | 0, o => (done, o)
  | n + 1, o => if done.contains o then advance (done.filter (· != o)) n (o + 1) else (done, o)

/-- A PSN noted as performed (R317). -/
def Peer.perform (p : Peer) (psn : W32) : Peer :=
  let d := p.done ++ [psn]
  let r := advance d (d.length + 1) p.oldest
  { p with done := r.1, oldest := r.2 }

/-- Whether a request is a duplicate (R317, step 3). -/
def Peer.duplicate (p : Peer) (psn : W32) : Bool := !reached psn p.oldest || p.done.contains psn

/-- A response sent back on the quad that brought its request (R316). -/
def respond (f : Frame) (typ : Nat) (g : Frame → Frame) (s : State) : State :=
  let base := frameTo f.src.toNat f.cls.toNat s
  sendOn f.quad.val typ (g { base with quad := f.quad }) s

/-- An ACK of one request, with the echo of R322. -/
def sendAck (f : Frame) (s : State) : State :=
  let ece := f.ce && (s.quad f.quad.val).role != 1
  respond f tAck (fun r => { r with arg := BitVec.ofNat 64 (f.psn.toNat + 2 ^ 32), ece := ece }) s

/-- A NAK with its reason. -/
def sendNak (f : Frame) (reason : Nat) (s : State) : State :=
  respond f tNak (fun r => { r with psn := f.psn, arg2 := BitVec.ofNat 32 reason }) s

/-- The end of a request performed through a window: ACK, or NAK with the reason. -/
def ackOrNak (f : Frame) (r : Except WReason (List PB) × State) : Bool × State :=
  match r.1 with
  | .ok _ => (true, sendAck f r.2)
  | .error w => (false, sendNak f (wreasonCode w) r.2)

/-- A request whose fields contradict its TYPE: NAK with reason RANGE (R317, step 6). -/
def malformedFrame (f : Frame) (s : State) : Bool × State := (false, sendNak f 2 s)

/-- The payload with the frame's poison. -/
def framePB (f : Frame) : List PB := f.payload.map (fun b => (b, f.poison))

/-- A WRITE or REDUCE_WRITE through the window it names. -/
def rxStore (f : Frame) (red : Option (RedOp × RedFmt)) (s : State) : Except WReason (List PB) × State :=
  winStore (.quad f.quad) f.win.toNat f.src.toNat f.arg.toNat (framePB f) red s

/-- A WRITE or REDUCE_WRITE at its home (R317): performed and acknowledged, refused, or waiting there with its window as it stands,
neither performed nor answered (R216, R235, R340). -/
def homeStore (typ : Nat) (red : Option (RedOp × RedFmt)) (f : Frame) (s : State) : Bool × State :=
  let r := rxStore f red s
  if r.2.eng.stalled then
    let w := s.window f.win.toNat
    (false, { s.setWindow f.win.toNat { w with inflight := w.inflight + 1 } with
      eng := { s.eng with heldRx := s.eng.heldRx ++ [⟨typ, f, w⟩] } })
  else ackOrNak f r

/-- Whether a WRITE's or REDUCE_WRITE's payload and ARG2 are as its TYPE has them (R316). -/
def storeFields (f : Frame) : Bool := !f.payload.isEmpty && decide (f.payload.length ≤ 4096) && f.arg2 == 0

/-- A WRITE performed (R317). -/
def performWrite (f : Frame) (s : State) : Bool × State :=
  if !storeFields f then malformedFrame f s else homeStore tWrite none f s

/-- MAXPAY in bytes (R325). -/
def maxPayload (s : State) : Nat := 1024 * 2 ^ s.net.maxpay.toNat

/-- A READ performed: answered with its data, or with a NAK (R317). -/
def performRead (f : Frame) (s : State) : Bool × State :=
  if !f.payload.isEmpty || f.arg2 == 0 || decide (maxPayload s < f.arg2.toNat) then
    malformedFrame f s
  else
    let r := winLoad (.quad f.quad) f.win.toNat f.src.toNat f.arg.toNat f.arg2.toNat s
    match r.1 with
    | .ok d =>
      (true, respond f tReadResp (fun g => { g with psn := f.psn, payload := plain d, poison := anyPoison d }) r.2)
    | .error w => (false, sendNak f (wreasonCode w) r.2)

/-- A SIGNAL performed at its object's home and then acknowledged (R262, R317); one that a die in test mode keeps from it is not
performed, nor answered (R21). -/
def performSignal (f : Frame) (s : State) : Bool × State :=
  if !f.payload.isEmpty || f.arg2 != 0 then malformedFrame f s
  else
    let r := winObject f.win.toNat f.src.toNat (fld f.arg 19 0) s
    match r.1 with
    | .ok p =>
      let g : Signal := ⟨p, BitVec.ofNat 32 (fld f.arg 63 32), none⟩
      if g.held r.2 then (false, r.2) else (true, sendAck f (applySignal g r.2))
    | .error w => (false, sendNak f (wreasonCode w) r.2)

/-- A REDUCE_WRITE performed (R206, R317). -/
def performReduce (f : Frame) (s : State) : Bool × State :=
  match redOf f.redOp.toNat f.redFmt.toNat with
  | none => malformedFrame f s
  | some red =>
    if !storeFields f || f.payload.length % 256 != 0 || f.arg.toNat % 256 != 0 then malformedFrame f s
    else homeStore tReduce (some red) f s

/-- A request that waits at its home tried again, with its window as step 5 of R234 passed it: performed and acknowledged, or refused
there; its window has one request less under way (R235). -/
def retryRx (h : HeldRx) : State → State := orWait fun s =>
  let f := h.frame
  let i := f.win.toNat
  let now := s.window i
  let red := if h.typ = tReduce then redOf f.redOp.toNat f.redFmt.toNat else none
  let r := rxStore f red (s.setWindow i h.win)
  let t := r.2.setWindow i { now with
    inflight := now.inflight - 1, faults := if r.1.isOk then now.faults else satAdd now.faults 1 }
  let t := { t with eng := { t.eng with heldRx := t.eng.heldRx.filter (· != h) } }
  let a := ackOrNak f (r.1, t)
  if a.1 && (a.2.peer f.src.toNat).heldIncarn == some f.incarn then a.2.modPeer f.src.toNat (fun p => p.perform f.psn) else a.2

/-- The received requests that wait at their homes tried again, in the order of their arrival (R235, R340). -/
def settleRx (s : State) : State := forEach s.eng.heldRx retryRx s

/-! ### Transport registers -/

/-- A write of NET_XPORT (R319, R320). -/
def xportOp (v : W64) (s : State) : State :=
  let n := s.net
  let s := { s with net := { n with
      rto := if fld v 15 0 < 8 then 8 else BitVec.ofNat 16 (fld v 15 0)
      retries := if fld v 19 16 = 0 then n.retries else BitVec.ofNat 4 (fld v 19 16)
      xpeer := BitVec.ofNat 20 (fld v 51 32) } }
  if bit v 52 then s.modPeer (fld v 51 32) (fun p => { p with lost := false }) else s

/-- XPORT_CLR (R320). -/
def execXportClr (o : Origin) (v : W64) (s : State) : Host.Outcome State Fault Refusal :=
  .next (whenLive (fun s => if originFull o then xportOp v s else s) s)

/-! ### The NIC -/

/-- Slots, entries or descriptors of a ring (R275, R326). -/
def ringSize (l : BitVec 4) : Nat := 2 ^ (l.toNat + 4)

/-- A NIC descriptor's address in its ring of 16 B descriptors (R326). -/
def nicDesc (r : NicRing) (i : Nat) : Nat := r.base.toNat * 4096 + 16 * (i % ringSize r.l)

/-- The interrupt of a completed descriptor (R326). -/
def nicMsi (r : NicRing) (s : State) : State :=
  if r.ident = 0 then s else sendImsic r.file r.ident.toNat s

/-- The quad that NIC traffic leaves on: the first UP Ethernet quad. -/
def nicQuad (s : State) : Option Nat :=
  (List.range 16).find? (fun q => 2 ≤ (s.quad q).role.toNat && (s.quad q).state == 2)

/-- The checksum of a TCP or UDP segment inserted, over the pseudo-header of its addresses. -/
def insertSegSum (p : List Byte) (proto off len : Nat) (addrs : List Byte) : List Byte :=
  match (if proto = 6 then some 16 else if proto = 17 then some 6 else none) with
  | none => p
  | some f =>
    if p.length < off + f + 2 then p
    else
      let p := patch p (off + f) (be16 0)
      let c := inetSum (addrs ++ be16 proto ++ be16 len ++ (p.drop off).take len)
      patch p (off + f) (be16 (if proto = 17 ∧ c = 0 then 0xFFFF else c))

/-- IPv4, TCP and UDP checksums inserted in a packet (R326), behind an 802.1Q tag or none; a fragment's segment has none. -/
def insertSums (p : List Byte) : List Byte :=
  let o := if be16At p 12 = 0x8100 then 18 else 14
  if be16At p (o - 2) = 0x0800 ∧ o + 20 ≤ p.length then
    let ihl := 4 * ((p.getD o 0).toNat % 16)
    let p := patch p (o + 10) (be16 0)
    let p := patch p (o + 10) (be16 (inetSum ((p.drop o).take ihl)))
    if be16At p (o + 6) % 0x4000 ≠ 0 then p
    else insertSegSum p (p.getD (o + 9) 0).toNat (o + ihl) (be16At p (o + 2) - ihl) ((p.drop (o + 12)).take 8)
  else if be16At p (o - 2) = 0x86DD ∧ o + 40 ≤ p.length then
    insertSegSum p (p.getD (o + 6) 0).toNat (o + 40) (be16At p (o + 4)) ((p.drop (o + 8)).take 32)
  else p

/-- Transmit descriptors from HEAD up to TAIL (R326): buffers gathered up to EOP, the packet sent, with its
checksums where a descriptor of it asks for them, DONE set. The buffers of a packet whose EOP is not yet published stay gathered. -/
def nicSend (i : Nat) : Nat → State → State
  | 0, s => s
  | n + 1, s =>
    let r := s.nicTx i
    if r.head = r.tail ∨ r.state ≠ .active then s
    else
      match nicQuad s with
      | none => s
      | some q =>
        let da := nicDesc r r.head.toNat
        let d := memRead (hubPort 0) da 16 s
        let de := plain d.1.data
        let buf := memRead ⟨.hub, 0, .streaming, true⟩ (leAt de 0 8) (leAt de 8 2) d.2
        let acc := r.acc ++ plain buf.1.data
        let flags := leAt de 10 1
        let sums := r.accSums || nbit flags 1
        let s := (memWrite (hubPort 0) (da + 10) (clean (toBytes (flags % 128 + 128) 1)) buf.2).2
        let last := nbit flags 0
        let s := s.modNicTx i (fun r => { r with
          head := r.head + 1, acc := if last then [] else acc, accSums := !last && sums })
        let s := nicMsi r s
        nicSend i n (if last then s.emit (.packet (Fin.ofNat 16 q) (if sums then insertSums acc else acc)) else s)

/-- A write of a transmit ring's TAIL (R326). -/
def nicTailOp (i : Nat) (v : W64) (s : State) : State :=
  let s := s.modNicTx i (fun r => { r with tail := BitVec.ofNat 32 (fld v 31 0) })
  let r := s.nicTx i
  nicSend i (r.tail - r.head).toNat s

/-- NIC_TX_TAIL (R326). -/
def execNicTxTail (o : Origin) (r : Fin 64) (v : W64) (s : State) : Host.Outcome State Fault Refusal :=
  .next (whenServed (fun s => if originFull o then nicTailOp r.val v s else s) s)

/-- Bytes of a receive ring's buffers (R326). -/
def nicBufBytes (r : NicRing) : Nat := 2048 * 2 ^ r.bufsz.toNat

/-- The checksum bits of a receive descriptor (R326): good or bad; neither for a packet that is not IP (LOG 151). -/
def nicSumBits (p : List Byte) : Nat :=
  match ipView p with
  | some v => if sumsGood p v then 2 else 4
  | none => 0

/-- A packet put into the buffers of a receive ring (R326); with no descriptor left it is dropped. -/
def nicFill (i : Nat) (sums : Nat) : Nat → List Byte → State → State
  | 0, _, s => s
  | n + 1, bs, s =>
    let r := s.nicRx i
    if r.head = r.tail then s
    else
      let da := nicDesc r r.head.toNat
      let d := memRead (hubPort 0) da 16 s
      let part := bs.take (nicBufBytes r)
      let rest := bs.drop (nicBufBytes r)
      let s := (memWrite ⟨.hub, 0, .streaming, true⟩ (leAt (plain d.1.data) 0 8) (clean part) d.2).2
      let flags := b2n rest.isEmpty + sums + 128
      let s := (memWrite (hubPort 0) (da + 8) (clean (toBytes part.length 2 ++ toBytes flags 1)) s).2
      let s := nicMsi r (s.modNicRx i (fun r => { r with head := r.head + 1 }))
      if rest.isEmpty then s else nicFill i sums n rest s

/-- The enabled receive rings. -/
def nicRings (s : State) : List Nat :=
  (List.range 64).filter (fun i => (s.nicRx i).enable && (s.nicRx i).state == .active)

/-- A packet for the NIC: it goes to the ring that its hash chooses (R326). -/
def nicDeliver (p : List Byte) (s : State) : State :=
  let rings := nicRings s
  match rings[ringHash p % rings.length]? with
  | some i => nicFill i (nicSumBits p) (p.length / 2048 + 1) p s
  | none => s

/-- A packet received on an Ethernet quad (R326): UDP to PORT at the module's own address is a transport packet, which the row of its
frame's TYPE performs; with a bad checksum, or without a source address (R324), it is dropped and counted. A module without FEAT_NL_UDP
or a node ID has no transport there (R314, R343). The others go to the NIC. -/
def nicReceive (q : Nat) (p : Packet) (s : State) : State :=
  let x := s.quad q
  if x.state ≠ 2 ∨ x.role.toNat < 2 then s
  else
    match (if s.glb.drvAccept.getLsbD 3 && s.net.nodeId != 0 then ipView p.bytes else none) with
    | none => nicDeliver p.bytes s
    | some v =>
      if !udpTo p.bytes v s.net.port.toNat then nicDeliver p.bytes s
      else
        let own := addrEntry s.net.nodeId.toNat s
        match own.1 with
        | none => countDrop q own.2
        | some e =>
          if !addressedTo v e then nicDeliver p.bytes own.2
          else if segSumGood p.bytes v then own.2 else countDrop q own.2

/-- NIC_RECEIVE (R326). -/
def execNicReceive (q : QuadId) (p : Packet) (s : State) : Host.Outcome State Fault Refusal :=
  .next (whenServed (nicReceive q.val p) s)

end Sys2Proof.Machine
end

