-- ==== Sys2Proof/Machine/PowerGroup.lean ====
section
/-! DEFINITION. Power groups (R362-R369): BUDGET frames, epochs, leases, joining and leaving through POWER_BUDGET. -/

namespace Sys2Proof.Machine

/-- Kinds of BUDGET frame (R364). -/
def kReport : Nat := 0
def kGrant : Nat := 1
def kReturn : Nat := 2

/-- Whether CAP bounds E (R364, R366). -/
def Pwr.full (p : Pwr) : Bool := decide (p.cap < p.share)

/-- A BUDGET frame sent to a node (R364). -/
def sendBudget (node kind watts id : Nat) (s : State) : State :=
  match s.pwr.group with
  | none => s
  | some g =>
    let arg := kind + 4 * g.my + 2 ^ 8 * s.pwr.wait.toNat + 2 ^ 16 * g.gid.toNat + 2 ^ 32 * (watts % 2048) +
      2 ^ 43 * b2n (kind == kReport && s.pwr.full)
    (sendReq node .power tBudget { frameTo node 3 s with arg := BitVec.ofNat 64 arg, arg2 := BitVec.ofNat 32 id } s).2

/-- Every other member of the group (R362). -/
def otherMembers (g : GroupCfg) : List Nat := (g.members.eraseIdx g.my).map (·.toNat)

/-- Step 1 of R366: a REPORT to every other member. -/
def sendReports (g : GroupCfg) (s : State) : State :=
  forEach (otherMembers g) (fun n s => sendBudget n kReport s.pwr.effective 0 s) s

/-- Step 2 of R366: every grant still kept donated is sent again. -/
def renewGrants (s : State) : State :=
  forEach (s.pwr.don.filter (·.renew)) (fun r s => sendBudget r.peer kGrant r.watts r.id.toNat s) s

/-- Step 3 of R366: the newest received grant goes back. -/
def returnNewest (s : State) : State :=
  match s.pwr.recv.getLast? with
  | none => s
  | some r => sendBudget r.peer kReturn r.watts r.id.toNat (modPwr (fun p => { p with recv := p.recv.dropLast }) s)

/-- The members that may take a donation (R366, step 4): a REPORT within 50 ms with FULL = 0, WAIT below 0.05 × 255 and WATTS up to
1,775 W, from a member that is not lost (R368). -/
def takers (g : GroupCfg) (s : State) : List ReportRec :=
  s.pwr.reports.filter (fun r =>
    !r.full && decide (r.wait * 100 < 5 * 255) && decide (r.watts ≤ 1775) &&
      decide ((s.hub.tel - r.time).toNat ≤ 5000000) &&
      !((s.peer ((g.members.getD r.idx 0).toNat)).lost))

/-- The taker with the lowest WAIT, then the lowest index. -/
def bestTaker (l : List ReportRec) : Option ReportRec :=
  l.foldl (fun acc r =>
    match acc with
    | none => some r
    | some b => if r.wait < b.wait ∨ (r.wait = b.wait ∧ r.idx < b.idx) then some r else acc) none

/-- A grant of 25 W: D rises first, then the GRANT goes (R366). -/
def donate (g : GroupCfg) (s : State) : State :=
  match bestTaker (takers g s) with
  | none => s
  | some r =>
    let node := (g.members.getD r.idx 0).toNat
    let id := s.pwr.nextId
    let s := modPwr (fun p => { p with don := p.don ++ [⟨node, id, 25, true⟩], nextId := id + 1 }) s
    sendBudget node kGrant 25 id.toNat s

/-- Step 5 of R366: the oldest donated grant that is still renewed is no longer. -/
def reclaim (s : State) : State :=
  match s.pwr.don.findIdx? (·.renew) with
  | none => s
  | some i => { s with pwr := { s.pwr with don := s.pwr.don.modify i (fun r => { r with renew := false }) } }

/-- TEL counts of an epoch, 10 ms (R365). -/
def epochLen : Nat := 1000000

/-- The counts of an epoch in which both conditions of R365 held: of those that passed while no command waited the model knows, of the
others the operand says. -/
def waitCounts (given : Nat) (p : Pwr) : Nat := max p.epochBusy (min (epochLen - (p.epochTicks - p.epochBusy)) given)

/-- WAIT of a REPORT (R364): w × 255, rounded, for `n` counts of the epoch. -/
def waitByte (n : Nat) : BitVec 8 := BitVec.ofNat 8 ((255 * n + epochLen / 2) / epochLen)

/-- Steps 3 and 4 of R366: a member that waited returns its newest grant, or donates; one that its CAP bounds returns its newest grant
(R370, LOG 148) and donates what CAP leaves unused. -/
def dodge (g : GroupCfg) (high : Bool) (s : State) : State :=
  if high && !s.pwr.recv.isEmpty then returnNewest s
  else
    let s := if s.pwr.full then returnNewest s else s
    if (high && decide (725 ≤ s.pwr.share)) || s.pwr.full then donate g s else s

/-- The end of an epoch (R366), `n` counts of it spent waiting (R365). -/
def epochOp (n : Nat) (s : State) : State :=
  let s := { s with pwr := { s.pwr with epochTicks := 0, epochBusy := 0 } }
  match s.pwr.group with
  | none => s
  | some g =>
    let s := { s with pwr := { s.pwr with wait := waitByte n } }
    if !s.pwr.leave.isEmpty then s
    else
      let s := dodge g (decide (epochLen ≤ 10 * n)) (renewGrants (sendReports g s))
      if 50 * n < epochLen then reclaim s else s

/-- POWER_EPOCH (R365, R366): nothing while Z2 stands still (R400, R402). -/
def execPowerEpoch (waitTicks : Nat) (s : State) : Host.Outcome State Fault Refusal :=
  .next (whenServed (fun s => if s.z2Still then s else epochOp (waitCounts waitTicks s.pwr) s) s)

/-- GRANT_LEASE_EXPIRY (R368): a received grant leaves R. -/
def execGrantLeaseExpiry (idx : Fin 64) (id : W32) (s : State) : Host.Outcome State Fault Refusal :=
  .next (whenLive (fun s =>
    match s.pwr.group with
    | none => s
    | some g =>
      let node := (g.members.getD idx.val 0).toNat
      modPwr (fun p => { p with recv := p.recv.filter (fun r => !(r.peer == node && r.id == id)) }) s) s)

/-- DONATION_EXPIRY (R368): a donated grant that was not sent for 100 ms leaves D. -/
def execDonationExpiry (id : W32) (s : State) : Host.Outcome State Fault Refusal :=
  .next (whenLive (fun s =>
    modPwr (fun p => { p with don := p.don.filter (fun r => r.id != id) }) s) s)

/-! ### BUDGET frames received -/

/-- Whether a BUDGET frame comes from member IDX of the receiver's group (R364). -/
def fromMember (f : Frame) (s : State) : Bool :=
  match s.pwr.group with
  | none => false
  | some g =>
    fld f.arg 31 16 == g.gid.toNat && decide (fld f.arg 7 2 < g.members.length) &&
      g.members.getD (fld f.arg 7 2) 0 == f.src

/-- A BUDGET frame performed and acknowledged, or answered NAK SOURCE (R364). -/
def budgetFrame (kind : Nat) (act : State → State) (f : Frame) (s : State) : Bool × State :=
  if fld f.arg 1 0 ≠ kind then (false, s)
  else if !f.payload.isEmpty || f.win != 0 then malformedFrame f s
  else if !fromMember f s then (false, sendNak f 1 s)
  else (true, act (sendAck f s))

/-- A BUDGET frame of the reserved KIND 0b11: refused, for its sender where that is no member (R364), else as one that contradicts its
TYPE (R317). -/
def reservedBudget (f : Frame) (s : State) : Bool × State := if fromMember f s then malformedFrame f s else (false, sendNak f 1 s)

/-- A REPORT noted (R366). -/
def takeReport (f : Frame) (s : State) : State :=
  let r : ReportRec := ⟨fld f.arg 7 2, fld f.arg 15 8, fld f.arg 42 32, bit f.arg 43, s.hub.tel⟩
  { s with pwr := { s.pwr with reports := s.pwr.reports.filter (fun x => x.idx != r.idx) ++ [r] } }

/-- A GRANT (R367): one with a new grant ID is burned where it fits, else returned at once; one already held is renewed, and one given back
or expired since comes to nothing. -/
def takeGrant (f : Frame) (s : State) : State :=
  match s.pwr.group with
  | none => s
  | some g =>
    let node := f.src.toNat
    let w := fld f.arg 42 32
    if s.pwr.seen.contains (node, f.arg2) then s
    else
      let s := { s with pwr := { s.pwr with seen := s.pwr.seen ++ [(node, f.arg2)] } }
      if s.pwr.leave.isEmpty && decide (g.base + s.pwr.received + w ≤ 1800) && !s.pwr.full then
        modPwr (fun p => { p with recv := p.recv ++ [⟨node, f.arg2, w, true⟩] }) s
      else sendBudget node kReturn w f.arg2.toNat s

/-- A RETURN (R368): the grant leaves D. -/
def takeReturn (f : Frame) (s : State) : State :=
  modPwr (fun p => { p with don := p.don.filter (fun r => !(r.peer == f.src.toNat && r.id == f.arg2)) }) s

/-! ### POWER_BUDGET -/

/-- Group settings of a POWER_BUDGET (R362): none where GROUP_W is 0. -/
def groupOf (b : List Byte) : Option GroupCfg :=
  if leAt b 20 4 = 0 then none
  else
    let n := leAt b 26 1 + 1
    some { w := leAt b 20 4, gid := BitVec.ofNat 16 (leAt b 24 2), my := leAt b 27 1,
           members := (List.range n).map (fun i => BitVec.ofNat 20 (leAt b (64 + 4 * i) 4)) }

/-- Whether no node appears twice. -/
def noRepeats : List (BitVec 20) → Bool
  | [] => true
  | x :: xs => !xs.contains x && noRepeats xs

/-- Whether group settings are legal (R362). -/
def groupLegal (b : List Byte) (g : GroupCfg) (own : BitVec 20) : Bool :=
  decide (g.members.length ≤ 64) && decide (64 + 4 * g.members.length ≤ b.length) && decide (700 ≤ g.base) &&
    decide (g.base ≤ 1800) && decide (g.my < g.members.length) && g.members.getD g.my 0 == own && own != 0 &&
    noRepeats g.members

/-- How a POWER_BUDGET is refused (R353, R362): ST_ILLEGAL before ST_FEATURE (R296). -/
def budgetRefusal (b : List Byte) (s : State) : Option (Status × Nat) :=
  let cfg := groupOf b
  let legal := capInRange (leAt b 16 2) (leAt b 18 2) && (match cfg with
    | some g => groupLegal b g s.net.nodeId
    | none => true)
  if !legal then some (.illegal, 0x02)
  else if cfg.isSome && !s.glb.drvAccept.getLsbD 7 then some (.feature, 7)
  else none

/-- The settings of a POWER_BUDGET take effect (R353, R362, R363): joining a group holds E at 700 W. -/
def applyBudget (b : List Byte) (s : State) : State :=
  let cfg := groupOf b
  modPwr (fun p =>
    let p := if capInRange (leAt b 16 2) (leAt b 18 2) then { p with cap := leAt b 16 2, window := leAt b 18 2 } else p
    if p.group = cfg then p
    else { p with group := cfg, joining := cfg.isSome, recv := [], reports := [] }) s

/-- The old group is left (R369): R falls to 0, every received grant is returned, donated ones are no longer renewed. -/
def leaveGroup (s : State) : State :=
  let l := s.pwr.recv
  let s := modPwr (fun p => { p with recv := [], don := p.don.map (fun r => { r with renew := false }) }) s
  forEach l (fun r s => sendBudget r.peer kReturn r.watts r.id.toNat s) s

/-- Leaving POWER_BUDGET commands apply once D is 0 (R369). -/
def leaveDone (s : State) : State :=
  if s.pwr.don.isEmpty then
    let l := s.pwr.leave
    let s := { s with pwr := { s.pwr with leave := [] } }
    forEach l (fun e s =>
      match startedCmd s e.1.val e.2 with
      | some c => completeCmd e.1.val e.2 .ok 0 0 (applyBudget c.bytes s)
      | none => s) s
  else s

/-- GROUP_LEAVE_COMPLETE (R369). -/
def execGroupLeaveComplete (s : State) : Host.Outcome State Fault Refusal := .next (whenServed leaveDone s)

/-- POWER_BUDGET (R353, R362, R369): applied at once, or once the old group has been left. -/
def powerBudgetOp (q n : Nat) (c : Cmd) (s : State) : State :=
  match budgetRefusal c.bytes s with
  | some (st, d) => completeCmd q n st d 0 s
  | none =>
    if (s.pwr.group.isSome && s.pwr.group != groupOf c.bytes) || !s.pwr.leave.isEmpty then
      let s := setPhase q n .running (leaveGroup s)
      { s with pwr := { s.pwr with leave := s.pwr.leave ++ [(Fin.ofNat 1024 q, n)] } }
    else completeCmd q n .ok 0 0 (applyBudget c.bytes s)

/-- POWER_BUDGET (R353). -/
def execPowerBudget (q : QId) (n : Nat) (s : State) : Host.Outcome State Fault Refusal :=
  .next (whenServed (onCmd q.val n 0x60 (powerBudgetOp q.val n)) s)

end Sys2Proof.Machine
end

