-- ==== Sys2Proof/Machine/Coll.lean ====
section
/-! DEFINITION. The collective sequencer (R330-R335): descriptors, schedules as lists of actions, running them, ends and
aborts. -/

namespace Sys2Proof.Machine

/-! ### Descriptors -/

/-- Fields of a descriptor (R330). -/
def dOp (d : List Byte) : Nat := leAt d 0 1
def dSched (d : List Byte) : Nat := leAt d 1 1 % 4
def dClass (d : List Byte) : Nat := leAt d 1 1 / 4 % 4
def dSigv (d : List Byte) : Bool := nbit (leAt d 1 1) 4
def dRedOp (d : List Byte) : Nat := leAt d 2 1 % 4
def dRedFmt (d : List Byte) : Nat := leAt d 2 1 / 4 % 8
def dRanks (d : List Byte) : Nat := leAt d 4 4
def dRank (d : List Byte) : Nat := leAt d 8 4
def dId (d : List Byte) : W32 := BitVec.ofNat 32 (leAt d 12 4)
def dCount (d : List Byte) : Nat := leAt d 16 8
def dSrc (d : List Byte) : Nat := leAt d 24 8
def dDst (d : List Byte) : Nat := leAt d 32 8
def dOffset (d : List Byte) : Nat := leAt d 40 8
def dReadyVid (d : List Byte) : Nat := leAt d 48 4
def dReadyBase (d : List Byte) : Nat := leAt d 52 4
def dDataVid (d : List Byte) : Nat := leAt d 56 4
def dDataBase (d : List Byte) : Nat := leAt d 60 4
def dSigref (d : List Byte) : Nat := leAt d 64 8
def dSiginc (d : List Byte) : Nat := leAt d 72 4
def dTimeout (d : List Byte) : Nat := leAt d 76 2

/-- Window, node, READY and DATA VIDs of rank i. -/
def rWin (d : List Byte) (i : Nat) : Nat := leAt d (80 + 16 * i) 4 % 4096
def rNode (d : List Byte) (i : Nat) : Nat := leAt d (80 + 16 * i) 4 / 4096
def rReady (d : List Byte) (i : Nat) : Nat := leAt d (84 + 16 * i) 4
def rData (d : List Byte) (i : Nat) : Nat := leAt d (88 + 16 * i) 4

/-- Whether an operation reduces. -/
def opReduces (op : Nat) : Bool := op == 0x02 || op == 0x10 || op == 0x11

/-- Whether an operation acts on one target window. -/
def opSingle (op : Nat) : Bool := op ≤ 0x02

/-- DETAIL of an illegal descriptor (R12, R330-R332), if it is. -/
def descIllegal (d : List Byte) : Option Nat :=
  let op := dOp d
  let known := op ≤ 0x02 || (0x10 ≤ op && op ≤ 0x13)
  let red := opReduces op
  let refused := !opSingle op && dRanks d != 1 &&
    ((op == 0x13 && dSched d != 2) || ((op == 0x11 || op == 0x12) && dSched d == 1))
  if !known || dSched d == 3 || dClass d == 3 || (red && ((redOpOf (dRedOp d)).isNone || (redFmtOf (dRedFmt d)).isNone)) ||
      (dSigv d && refOf (dSigref d) == .reserved) then some 0x01
  else if dRanks d < 1 || 4096 < dRanks d || dRanks d ≤ dRank d || (opSingle op && dRanks d != 1) || dCount d < 1 ||
      2 ^ 36 < dCount d || (red && dCount d % 256 != 0) || (op == 0x02 && dOffset d % 256 != 0) || refused ||
      (red && (redOf (dRedOp d) (dRedFmt d)).isNone) then some 0x02
  else none

/-! ### Schedules -/

/-- One action of a schedule. Offsets are in bytes of SRC, DST or the target window. -/
inductive CollAct where
  | copy (src dst len : Nat)
  | ready (rank : Nat)
  | waitReady (k : Nat)
  | waitData (k : Nat)
  | waitAnswers
  | move (fromSrc : Bool) (off len rank at_ : Nat) (red : Bool)
  | fetch
  | data (rank : Nat)
deriving DecidableEq, Repr

/-- The reduce-scatter loop of the ring (R333). -/
def ringScatter (n r c : Nat) : List CollAct :=
  (List.range (n - 1)).flatMap (fun k =>
    let j := (r + n - 1 - k) % n
    let s := (r + 1) % n
    (if k = 0 then [.move true (j * c) c s (j * c) true]
     else [.waitData k, .move false (j * c) c s (j * c) true]) ++ [.data s])

/-- The all-gather loop of the ring (R333), its waits counted from `base`. -/
def ringGather (n r c base : Nat) : List CollAct :=
  (List.range (n - 1)).flatMap (fun k =>
    let j := (r + n - k) % n
    let s := (r + 1) % n
    (if k = 0 then [] else [.waitData (base + k)]) ++ [.move false (j * c) c s (j * c) false, .data s])

/-- Every rank but one's own. -/
def otherRanks (n r : Nat) : List Nat := (List.range n).filter (· != r)

/-- The children of a rank in the tree (R333). -/
def treeKids (n r : Nat) : List Nat := [2 * r + 1, 2 * r + 2].filter (· < n)

/-- The tree's schedule (R333) for `len` bytes. -/
def treeSchedule (n r len : Nat) : List CollAct :=
  let kids := treeKids n r
  let c := kids.length
  let parent := (r - 1) / 2
  [.copy 0 0 len] ++ kids.map .ready ++
    (if r = 0 then [] else [.waitReady 1]) ++
    (if c = 0 then [] else [.waitData c]) ++
    (if r = 0 then [] else [.move false 0 len parent 0 true, .data parent, .waitData (c + 1)]) ++
    kids.flatMap (fun k => [.move false 0 len k 0 false, .data k])

/-- The direct schedules (R333). -/
def directSchedule (op n r c : Nat) : List CollAct :=
  let others := otherRanks n r
  let init : CollAct := .copy (if op = 0x12 then 0 else r * c) (r * c) c
  let send (q : Nat) : List CollAct :=
    [if op = 0x12 then .move true 0 c q (r * c) false
     else if op = 0x13 then .move true (q * c) c q (r * c) false
     else .move true (q * c) c q (q * c) true, .data q]
  [init] ++ others.map .ready ++ [.waitReady (n - 1)] ++ others.flatMap send ++ [.waitData (n - 1)] ++
    (if op = 0x10 then
      others.flatMap (fun q => [.move false (r * c) c q (r * c) false, .data q]) ++ [.waitData (2 * (n - 1))]
     else [])

/-- The schedule of a descriptor (R332, R333). -/
def schedule (d : List Byte) : List CollAct :=
  let n := dRanks d
  let r := dRank d
  let c := dCount d
  let p := (r + n - 1) % n
  let op := dOp d
  if op = 0x00 then [.move true 0 c 0 (dOffset d) false]
  else if op = 0x01 then [.fetch]
  else if op = 0x02 then [.move true 0 c 0 (dOffset d) true]
  else if n = 1 then [.copy 0 0 c]
  else if dSched d = 1 then treeSchedule n r (n * c)
  else if dSched d = 2 then directSchedule op n r c
  else if op = 0x10 then
    [.copy 0 0 (n * c), .ready p, .waitReady 1] ++ ringScatter n r c ++ [.waitData (n - 1), .waitAnswers, .ready p, .waitReady 2] ++
      ringGather n r c (n - 1) ++ [.waitData (2 * (n - 1))]
  else if op = 0x11 then
    [.copy 0 0 (n * c), .ready p, .waitReady 1] ++ ringScatter n r c ++ [.waitData (n - 1)]
  else [.copy 0 (r * c) c, .ready p, .waitReady 1] ++ ringGather n r c 0 ++ [.waitData (n - 1)]

/-! ### Local memory of a collective -/

/-- The port of the sequencer's and the checkpoint engine's accesses in a context. -/
def enginePort (s : State) (ctx : Nat) (coh : Bool) : Port := ⟨.hub, (s.ctx ctx).func.toNat, .streaming, coh⟩

/-- What an engine access came to: data and the status it met. -/
structure EngRes where
  data : List PB
  st   : Status × Nat
  fail : Bool                      -- the access was not made: no translation
deriving DecidableEq, Repr

/-- A read of virtual memory by an engine of the hub. -/
def engineRead (ctx va n : Nat) (s : State) : EngRes × State :=
  let x := xlatRange .hub ctx .load false va n s
  match x.1.2 with
  | some e => (⟨[], xresStatus e, true⟩, x.2)
  | none =>
    x.1.1.foldl (fun (acc : EngRes × State) p =>
      let r := memRead (enginePort acc.2 ctx p.coh) p.pa p.len acc.2
      (⟨acc.1.data ++ r.1.data, joinStatus acc.1.st (metStatus r.1.met), false⟩, r.2)) ((⟨[], (.ok, 0), false⟩ : EngRes), x.2)

/-- A write of virtual memory by an engine of the hub; the last of its writes to host memory leaves without Relaxed Ordering (R303). -/
def engineWrite (ctx va : Nat) (data : List PB) (s : State) : EngRes × State :=
  let x := xlatRange .hub ctx .store true va data.length s
  match x.1.2 with
  | some e => (⟨[], xresStatus e, true⟩, x.2)
  | none =>
    let w := x.1.1.foldl (fun (acc : Met × State) p =>
      let w := memWrite (enginePort acc.2 ctx p.coh) p.pa ((data.drop p.off).take p.len) acc.2
      (acc.1.and w.1, w.2)) (({} : Met), x.2)
    (⟨[], worse (metStatus w.1) (if anyPoison data then (.poison, 0) else (.ok, 0)), false⟩, lastStrict x.2.out.length w.2)

/-- Bytes of virtual memory that no rule determines: free values, each poisoned or not. -/
def engineFree (ctx va n : Nat) (s : State) : State :=
  let data : List PB := (List.range n).map (fun i => let b := Config.freeBits s.free i; (b.setWidth 8, b.getLsbD 8))
  (engineWrite ctx va data s).2.took

/-! ### Running -/

/-- A running collective. -/
def State.coll? (s : State) (id : W32) : Option Coll := s.eng.colls.find? (fun c => c.id == id)

/-- A collective changed. -/
def State.modColl (s : State) (id : W32) (f : Coll → Coll) : State :=
  { s with eng := { s.eng with colls := s.eng.colls.map (fun c => if c.id = id then f c else c) } }

/-- A status met by a collective. -/
def noteColl (id : W32) (st : Status × Nat) (s : State) : State :=
  s.modColl id (fun c => { c with st := joinStatus c.st st })

/-- Whether a collective has a request that is not answered. -/
def collOpen (s : State) (id : W32) : Bool := s.net.peers.any (fun e => e.2.reqs.any (fun r => r.owner == .coll id))

/-- Whether a collective's wait is on its way or pending. -/
def collWaiting (s : State) (id : W32) : Bool :=
  s.sync.waits.any (fun w => w.who == .coll id) || s.sync.arrivals.any (fun w => w.who == .coll id)
    || s.sync.returns.any (fun e => e.1.who == .coll id)

/-- A collective's wait taken off its object. -/
def dropCollWait (id : W32) (s : State) : State :=
  keepWaits (fun w => w.who != .coll id) s

/-- The requests of an operation forgotten by it: answers to them mean nothing any more. -/
def disown (o : NetOwner) (s : State) : State :=
  { s with net := { s.net with peers := Sparse.mapVals {} s.net.peers (fun p =>
      { p with reqs := p.reqs.map (fun r => if r.owner = o then { r with owner := .none } else r) }) } }

/-- A request's immediate outcome for a collective (R328, R329). -/
def collSendRes (id : W32) (node : Nat) (r : SendRes) (s : State) : State :=
  match r with
  | .refused k => noteColl id (.windowFault, k + 4096 * node) s
  | .lost => noteColl id (.peerLost, node) s
  | _ => s

/-- A frame of a collective sent to a rank. -/
def collSend (c : Coll) (rank typ : Nat) (f : Frame) (s : State) : State :=
  let node := rNode c.desc rank
  let r := sendReq node (.coll c.id) typ { f with win := BitVec.ofNat 12 (rWin c.desc rank) } s
  collSendRes c.id node r.1 r.2

/-- A signal of a collective to an object of a rank (R333). -/
def collSignal (c : Coll) (rank vid : Nat) (s : State) : State :=
  let f := frameTo (rNode c.desc rank) (dClass c.desc) s
  collSend c rank tSignal { f with arg := BitVec.ofNat 64 (vid % 2 ^ 20 + 2 ^ 32) } s

/-- Frames of at most MAXPAY that carry bytes to a rank (R325). -/
def collFrames (c : Coll) (rank at_ : Nat) (red : Bool) : Nat → List PB → State → State
  | 0, _, s => s
  | n + 1, data, s =>
    if data.isEmpty then s
    else
      let m := maxPayload s
      let part := data.take m
      let f := frameTo (rNode c.desc rank) (dClass c.desc) s
      let f := { f with
        arg := BitVec.ofNat 64 at_, payload := plain part, poison := anyPoison part
        redOp := if red then BitVec.ofNat 2 (dRedOp c.desc) else 0
        redFmt := if red then BitVec.ofNat 3 (dRedFmt c.desc) else 0 }
      let s := collSend c rank (if red then tReduce else tWrite) f s
      let s := s.modColl c.id (fun c => { c with sent := c.sent + part.length })
      collFrames c rank (at_ + m) red n (data.drop m) s

/-- READ frames of a GET (R331). -/
def collReads (c : Coll) (at_ : Nat) : Nat → Nat → State → State
  | 0, _, s => s
  | n + 1, left, s =>
    if left = 0 then s
    else
      let m := min left (maxPayload s)
      let f := frameTo (rNode c.desc 0) (dClass c.desc) s
      let node := rNode c.desc 0
      let f := { f with win := BitVec.ofNat 12 (rWin c.desc 0), arg := BitVec.ofNat 64 at_, arg2 := BitVec.ofNat 32 m }
      let r := sendReq node (.coll c.id) tRead f s
      let s :=
        match r.1 with
        | .answered d =>
          let w := engineWrite c.ctx.val (dDst c.desc + (at_ - dOffset c.desc)) d r.2
          noteColl c.id w.1.st w.2
        | x => collSendRes c.id node x r.2
      collReads c (at_ + m) n (left - m) s

/-- A wait of a collective on one of its objects (R332); a failed lookup ends it. -/
def collWait (c : Coll) (vid : Nat) (w : CollWait) (target : Nat) (s : State) : State :=
  let r := objLookup 0 c.ctx.val (vid % 2 ^ 20) .wait s
  match r.1 with
  | .ok p => postWait ⟨p, BitVec.ofNat 32 target, .coll c.id⟩ (r.2.modColl c.id (fun c => { c with wait := some w }))
  | .error o => noteColl c.id (objStatus o) (r.2.modColl c.id (fun c => { c with wait := none }))

/-- What an action of a schedule leaves: go on, stop at a wait, or stop for good. -/
inductive ActRes where
  | go | stop | fail
deriving DecidableEq, Repr

/-- One action performed. -/
def collAct (c : Coll) (a : CollAct) (s : State) : ActRes × State :=
  match a with
  | .copy src dst len =>
    let r := engineRead c.ctx.val (dSrc c.desc + src) len s
    if r.1.fail then (.fail, noteColl c.id r.1.st r.2)
    else
      let w := engineWrite c.ctx.val (dDst c.desc + dst) r.1.data r.2
      (if w.1.fail then .fail else .go, noteColl c.id w.1.st (noteColl c.id r.1.st w.2))
  | .ready rank => (.go, collSignal c rank (rReady c.desc rank) s)
  | .data rank => (.go, collSignal c rank (rData c.desc rank) s)
  | .move fromSrc off len rank at_ red =>
    let r := engineRead c.ctx.val ((if fromSrc then dSrc c.desc else dDst c.desc) + off) len s
    if r.1.fail then (.fail, noteColl c.id r.1.st r.2)
    else (.go, collFrames c rank at_ red (len / maxPayload s + 1) r.1.data (noteColl c.id r.1.st r.2))
  | .fetch =>
    (.go, collReads c (dOffset c.desc) (dCount c.desc / maxPayload s + 1) (dCount c.desc) s)
  | .waitReady k =>
    let s := collWait c (dReadyVid c.desc) (.ready (BitVec.ofNat 32 k)) (dReadyBase c.desc + k) s
    (if collWaiting s c.id then .stop else .fail, s)
  | .waitData k =>
    let s := collWait c (dDataVid c.desc) (.data (BitVec.ofNat 32 k)) (dDataBase c.desc + k) s
    (if collWaiting s c.id then .stop else .fail, s)
  | .waitAnswers =>
    if collOpen s c.id then (.stop, s.modColl c.id (fun c => { c with wait := some .answers })) else (.go, s)

/-- A remote signal in a class, of an operation that does not wait for it. -/
def sendSignal (ref : Nat) (inc : W32) (cls : Nat) (o : NetOwner) (s : State) : SendRes × State :=
  match refOf ref with
  | .remote win node =>
    let f := frameTo node cls s
    let f := { f with win := BitVec.ofNat 12 win, arg := BitVec.ofNat 64 (refVid ref + 2 ^ 32 * inc.toNat) }
    sendReq node o tSignal f s
  | _ => (.answered [], s)

/-- The signal at the end of an operation of the hub (R335, R337): in the issuing context, or remote in a class; the status it
leaves. -/
def endSignal (ctx ref : Nat) (inc : W32) (cls : Nat) (s : State) : (Status × Nat) × State :=
  match refOf ref with
  | .loc vid =>
    let r := objLookup 0 ctx vid .signal s
    match r.1 with
    | .ok p => ((.ok, 0), postSignal p inc r.2)
    | .error o => (objStatus o, r.2)
  | .remote _ node =>
    let r := sendSignal ref inc cls .none s
    match r.1 with
    | .refused k => ((.windowFault, k + 4096 * node), r.2)
    | .lost => ((.peerLost, node), r.2)
    | _ => ((.ok, 0), r.2)
  | .reserved => ((.ok, 0), s)

/-- A collective that ends leaves the sequencer. -/
def removeColl (id : W32) (s : State) : State :=
  let s := disown (.coll id) (dropCollWait id s)
  { s with eng := { s.eng with colls := s.eng.colls.filter (fun c => c.id != id) } }

/-- ABORT, naming a node, to every other rank of a table (R335). -/
def sendAborts (c : Coll) (named : Nat) (s : State) : State :=
  forEach (otherRanks (dRanks c.desc) (dRank c.desc)) (fun i s =>
    let node := rNode c.desc i
    if node = s.net.nodeId.toNat then s
    else
      let f := frameTo node 0 s
      (sendReq node .none tAbort { f with arg := BitVec.ofNat 64 named, arg2 := c.id } s).2) s

/-- Bytes of DST (R331): PUT and REDUCE_PUT have none. -/
def dstBytes (d : List Byte) : Nat :=
  if dOp d = 0x01 then dCount d else if opSingle (dOp d) then 0 else dRanks d * dCount d

/-- DST after a failure: unspecified (R335). -/
def loseDst (c : Coll) (s : State) : State := engineFree c.ctx.val (dDst c.desc) (dstBytes c.desc) s

/-- The chunks of DST that a REDUCE_SCATTER leaves unspecified: all but the rank's own (R331). -/
def loseChunks (c : Coll) (s : State) : State :=
  if dOp c.desc = 0x11 then
    let n := dCount c.desc
    let own := dRank c.desc * n
    engineFree c.ctx.val (dDst c.desc + own + n) ((dRanks c.desc - dRank c.desc - 1) * n) (engineFree c.ctx.val (dDst c.desc) own s)
  else s

/-- A collective ends early with a status (R335); `named` sends ABORT naming a node. -/
def failColl (c : Coll) (st : Status × Nat) (named : Option Nat) (s : State) : State :=
  let s := loseDst c (removeColl c.id s)
  let s := match named with
    | some n => sendAborts c n s
    | none => s
  completeCmd c.q.val c.uid st.1 st.2 c.sent s

/-- A collective whose schedule is through and whose requests are answered (R335). -/
def finishColl (c : Coll) (s : State) : State :=
  let s := removeColl c.id s
  let s := if c.st.1 = .ok then loseChunks c s else loseDst c s
  let g := if dSigv c.desc then endSignal c.ctx.val (dSigref c.desc) (BitVec.ofNat 32 (dSiginc c.desc)) (dClass c.desc) s
    else ((.ok, 0), s)
  let st := worse c.st g.1
  completeCmd c.q.val c.uid st.1 st.2 c.sent g.2

/-- A collective ended by what it met: a lost peer sends ABORT (R335). -/
def failMet (c : Coll) (s : State) : State :=
  failColl c c.st (if c.st.1 = .peerLost then some c.st.2 else none) s

/-- The actions of a collective from where it stands. -/
def runActs (id : W32) : List CollAct → State → State
  | [], s =>
    match s.coll? id with
    | none => s
    | some c =>
      if c.st.1 = .peerLost then failMet c s
      else if collOpen s id then s.modColl id (fun c => { c with wait := some .answers })
      else finishColl c s
  | a :: rest, s =>
    match s.coll? id with
    | none => s
    | some c =>
      if c.st.1 = .peerLost then failMet c s
      else
        let r := collAct c a s
        let s := r.2.modColl id (fun c => { c with pc := c.pc + 1 })
        match r.1 with
        | .go => runActs id rest s
        | .stop => s
        | .fail =>
          match s.coll? id with
          | some c => failMet c s
          | none => s

/-- A collective goes on from its position. -/
def advanceColl (id : W32) (s : State) : State :=
  match s.coll? id with
  | none => s
  | some c => runActs id ((schedule c.desc).drop c.pc) (s.modColl id (fun c => { c with wait := none }))

/-- Places of the sequencer (R335). -/
def collPlaces : Nat := 8

/-- Whether the rank table of a collective names a node. -/
def Coll.names (c : Coll) (node : Nat) : Bool := (List.range (dRanks c.desc)).any (fun i => rNode c.desc i == node)

/-- A collective that has no place ended by a lost peer (R320, R335). -/
def loseWaiting (c : Coll) (node : Nat) (s : State) : State :=
  completeCmd c.q.val c.uid .peerLost node 0 (sendAborts c node (loseDst c s))

/-- The first node of a rank table that is lost. -/
def Coll.lostPeer (c : Coll) (s : State) : Option Nat :=
  ((List.range (dRanks c.desc)).map (rNode c.desc)).find? (fun n => (s.peer n).lost)

/-- A collective takes a place: a COLL_ID in use is refused, a remembered ABORT or a lost peer ends it at once (R320, R335). -/
def startColl (c : Coll) (s : State) : State :=
  if (s.coll? c.id).isSome then completeCmd c.q.val c.uid .illegal 0x02 0 s
  else
    match s.eng.aborts.find? (fun e => e.1 == c.id) with
    | some e => completeCmd c.q.val c.uid .peerLost e.2.toNat 0 (loseDst c s)
    | none =>
      match c.lostPeer s with
      | some n => loseWaiting c n s
      | none => advanceColl c.id { s with eng := { s.eng with colls := s.eng.colls ++ [c] } }

/-- Waiting collectives take free places, in start order (R335). -/
def fillColls : Nat → State → State
  | 0, s => s
  | n + 1, s =>
    match s.eng.collQ with
    | [] => s
    | c :: rest =>
      if s.eng.colls.length < collPlaces then
        fillColls n (startColl c { s with eng := { s.eng with collQ := rest } })
      else s

/-- Places freed are filled; while memory that this needs must wait, they are not (LOG 144). -/
def settleColls (s : State) : State := orWait (fillColls s.eng.collQ.length) s

/-- COLLECTIVE (R330): the descriptor is read and checked, and the collective starts or waits for a place. -/
def collectiveOp (q n : Nat) (cmd : Cmd) (s : State) : State :=
  let len := leAt cmd.bytes 24 4
  let r := engineRead cmd.ctx (leAt cmd.bytes 16 8) len s
  if r.1.st.1 ≠ .ok then completeCmd q n r.1.st.1 r.1.st.2 0 r.2
  else
    let d := plain r.1.data
    if len < 80 ∨ len ≠ 80 + 16 * dRanks d then illegalCmd q n 0x02 r.2
    else
      match descIllegal d with
      | some k => illegalCmd q n k r.2
      | none =>
        let c : Coll := ⟨Fin.ofNat 1024 q, n, Fin.ofNat 64 cmd.ctx, dId d, d, 0, none, 0, (.ok, 0)⟩
        let s := setPhase q n .running r.2
        settleColls { s with eng := { s.eng with collQ := s.eng.collQ ++ [c] } }

/-- COLLECTIVE (R330). -/
def execCollective (q : QId) (n : Nat) (hw : List HostByte) (s : State) : Host.Outcome State Fault Refusal :=
  .next (whenServed (fun s => onCmd q.val n 0x30 (collectiveOp q.val n) (hostStores hw s)) s)

/-- A collective goes on from its wait with what its staging holds; frames made of words found uncorrectable are discarded (R388). -/
def collStep (id : W32) (a : StageRead) (s : State) : State :=
  let s := stagingFlaw a.err (hostStores a.hw s)
  unsent a.err s (settleColls (advanceColl id s))

/-- COLLECTIVE_WAIT_SATISFIED (R333): a collective whose READY or DATA wait has returned goes on. -/
def execCollectiveWaitSatisfied (id : W32) (hw : StageRead) (s : State) : Host.Outcome State Fault Refusal :=
  .next (whenServed (fun s =>
    let go (s : State) : State := if collWaiting s id then s else collStep id hw s
    match s.coll? id with
    | some c =>
      match c.wait with
      | some (.ready _) => go s
      | some (.data _) => go s
      | _ => s
    | none => s) s)

/-- COLLECTIVE_TIMEOUT (R335): ST_TIMEOUT, and ABORT naming the own node. -/
def execCollectiveTimeout (id : W32) (hw : List HostByte) (s : State) : Host.Outcome State Fault Refusal :=
  .next (whenServed (fun s =>
    match s.coll? id with
    | some c =>
      if dTimeout c.desc = 0 then s
      else settleColls (failColl c (worse c.st (.timeout, 0)) (some s.net.nodeId.toNat) (hostStores hw s))
    | none => s) s)

/-- ABORT_MEMORY_EXPIRY (R335): a remembered ABORT is forgotten. -/
def execAbortMemoryExpiry (id : W32) (s : State) : Host.Outcome State Fault Refusal :=
  .next (whenLive (fun s => { s with eng := { s.eng with aborts := s.eng.aborts.filter (fun e => e.1 != id) } }) s)

/-- An ABORT performed (R317, R335): never refused. -/
def performAbort (f : Frame) (s : State) : Bool × State :=
  let s := sendAck f s
  match s.coll? f.arg2 with
  | some c =>
    if c.names f.src.toNat then
      (true, settleColls (failColl c (worse c.st (.peerLost, fld f.arg 19 0)) none s))
    else (true, s)
  | none =>
    (true, { s with eng := { s.eng with
      aborts := s.eng.aborts.filter (fun e => e.1 != f.arg2) ++ [(f.arg2, BitVec.ofNat 20 (fld f.arg 19 0))] } })

/-- Collectives left without their wait by a lost die end (R268). -/
def sweepColls (s : State) : State :=
  let l := s.eng.colls.filter (fun c => c.st.1 == .dieLost && c.wait.isNone && !collWaiting s c.id)
  settleColls (forEach l (fun c => orWait (failMet c)) s)

/-- WAIT_REGISTER (R254): the n-th wait under way arrives; a collective whose wait is lost with its die ends (R268). -/
def execWaitRegister (n : Nat) (s : State) : Host.Outcome State Fault Refusal :=
  .next (whenServed (fun s =>
    let lost := (s.sync.arrivals[n]?).any (fun w => s.fenced (dieOfObj w.phys))
    let t := arriveWait n s
    if lost then sweepColls t else t) s)

/-- Collectives whose rank table names a lost node end, running or waiting for a place (R320, R335). -/
def loseCollPeer (node : Nat) (s : State) : State :=
  let l := s.eng.colls.filter (·.names node)
  let w := s.eng.collQ.filter (·.names node)
  let s := { s with eng := { s.eng with collQ := s.eng.collQ.filter (fun c => !c.names node) } }
  let s := forEach l (fun c s => failColl c (worse c.st (.peerLost, node)) (some node) s) s
  settleColls (forEach w (fun c => loseWaiting c node) s)

/-- A request of a collective answered: one that waits for its answers goes on once none is open (R335). -/
def collAnswered (id : W32) (s : State) : State :=
  match s.coll? id with
  | some c => if c.wait = some .answers ∧ !collOpen s id then settleColls (advanceColl id s) else s
  | none => s

end Sys2Proof.Machine
end

