-- ==== Sys2Proof/Machine/Ckpt.lean ====
section
/-! DEFINITION. The checkpoint engine (R337-R342): descriptors, saves with their snapshot, proofs at buddies, restores. -/

namespace Sys2Proof.Machine

/-! ### Descriptors and proofs -/

/-- Fields of a checkpoint descriptor (R337). -/
def kGen (d : List Byte) : Nat := leAt d 0 4
def kNbud (d : List Byte) : Nat := leAt d 4 1 % 4
def kSigv (d : List Byte) : Bool := nbit (leAt d 4 1) 2
def kBuddy (d : List Byte) (i : Nat) : Nat := leAt d (8 + 4 * i) 4
def kNreg (d : List Byte) : Nat := leAt d 16 4
def kSlot1 (d : List Byte) : Nat := leAt d 20 4
def kSigref (d : List Byte) : Nat := leAt d 24 8
def kSiginc (d : List Byte) : Nat := leAt d 32 4
def kLabel (d : List Byte) : List Byte := (d.drop 40).take 16
def kVa (d : List Byte) (i : Nat) : Nat := leAt d (64 + 16 * i) 8
def kLen (d : List Byte) (i : Nat) : Nat := leAt d (72 + 16 * i) 8

/-- The VA of each 64 KiB block, in region order (R338). -/
def blockVas (d : List Byte) : List Nat :=
  (List.range (kNreg d)).flatMap (fun i => (List.range (kLen d i / 65536)).map (fun j => kVa d i + 65536 * j))

/-- NBLK. -/
def nblk (d : List Byte) : Nat := (blockVas d).length

/-- Bytes of a manifest, and the bytes M it is given in a slot (R338). -/
def manBytes (d : List Byte) : Nat := 128 + 16 * kNreg d + 8 * nblk d
def manRoom (d : List Byte) : Nat := 65536 * ceilDiv (manBytes d) 65536

/-- Offset of a slot in a buddy's window (R338). -/
def slotBase (d : List Byte) (slot : Nat) : Nat := if slot = 0 then 0 else kSlot1 d * 65536

/-- Whether two regions overlap. -/
def regionsOverlap (d : List Byte) : Bool :=
  (List.range (kNreg d)).any (fun i => (List.range i).any (fun j => overlap (kVa d i) (kLen d i) (kVa d j) (kLen d j)))

/-- DETAIL of an illegal descriptor, if it is (R12, R337, R338). -/
def ckptIllegal (d : List Byte) (restore : Bool) : Option Nat :=
  if kSigv d && refOf (kSigref d) == .reserved then some 0x01
  else if kNbud d < 1 || 2 < kNbud d || kNreg d < 1 || 64 < kNreg d || (!restore && kGen d == 0) ||
      (List.range (kNreg d)).any (fun i => kVa d i % 65536 != 0 || kLen d i % 65536 != 0) || regionsOverlap d ||
      (!restore && decide (kSlot1 d * 65536 < manRoom d + nblk d * 65536)) then some 0x02
  else none

/-! ### The running save or restore -/

/-- The running save changed. -/
def modSave (f : Save → Save) (s : State) : State :=
  { s with eng := { s.eng with save := s.eng.save.map f } }

/-- A buddy of the running save changed. -/
def modBuddy (i : Nat) (f : Buddy → Buddy) (s : State) : State :=
  modSave (fun v => { v with buddies := v.buddies.modify i f }) s

/-- A status met by the running save or restore. -/
def noteSave (st : Status × Nat) (s : State) : State :=
  modSave (fun v => { v with st := joinStatus v.st st }) s

/-- Whether a buddy still takes part. -/
def Buddy.live (b : Buddy) : Bool := !b.lost && !b.refused

/-- Node and window of a buddy. -/
def Buddy.node (b : Buddy) : Nat := b.ref.toNat / 4096
def Buddy.win (b : Buddy) : Nat := b.ref.toNat % 4096

/-- Whether a buddy has a request that is not answered. -/
def buddyOpen (s : State) (i : Nat) : Bool := s.net.peers.any (fun e => e.2.reqs.any (fun r => r.owner == .ckpt i))

/-- Buddies that still take part. -/
def liveBuddies (v : Save) : List Nat :=
  (List.range v.buddies.length).filter (fun i => match v.buddies[i]? with | some b => b.live | none => false)

/-- Whether the fate of a buddy shows in the status (R341): always at a save; at a restore that has chosen its proof only the blocks
count (R342). -/
def buddyCounts (s : State) : Bool :=
  match s.eng.save with
  | some v => v.phase != .readBlocks
  | none => false

/-- A request's immediate outcome for a buddy's stream (R341). -/
def buddyRes (i node : Nat) (r : SendRes) (s : State) : State :=
  let note (st : Status × Nat) (s : State) : State := if buddyCounts s then noteSave st s else s
  match r with
  | .refused k => note (.windowFault, k + 4096 * node) (modBuddy i (fun b => { b with refused := true }) s)
  | .lost => note (.peerLost, node) (modBuddy i (fun b => { b with lost := true }) s)
  | _ => s

/-- WRITE frames that carry bytes to a buddy's window from an offset on. -/
def buddyWrite (i : Nat) (b : Buddy) (at_ : Nat) : Nat → List Byte → State → State
  | 0, _, s => s
  | n + 1, data, s =>
    if data.isEmpty then s
    else
      let m := maxPayload s
      let f := frameTo b.node 2 s
      let f := { f with win := BitVec.ofNat 12 b.win, arg := BitVec.ofNat 64 at_, payload := data.take m }
      let r := sendReq b.node (.ckpt i) tWrite f s
      buddyWrite i b (at_ + m) n (data.drop m) (buddyRes i b.node r.1 r.2)

/-- Bytes written to the slot of every buddy that takes part. -/
def slotWrite (off : Nat) (data : List Byte) (s : State) : State :=
  match s.eng.save with
  | none => s
  | some v =>
    forEach (liveBuddies v) (fun i s =>
      match v.buddies[i]? with
      | some b => buddyWrite i b (slotBase v.desc (v.gen % 2) + off) (data.length / 1024 + 1) data s
      | none => s) s

/-! ### Saves -/

/-- The manifest of a save with a STATE (R338). -/
def manifest (v : Save) (node : Nat) (state : Nat) : List Byte :=
  let n := nblk v.desc
  let head (st : Nat) (dig : List Byte) : List Byte :=
    toBytes 1 4 ++ toBytes st 4 ++ toBytes v.gen 4 ++ toBytes node 4 ++ toBytes (kNreg v.desc) 4 ++ toBytes 0 4 ++ toBytes n 8 ++
      kLabel v.desc ++ toBytes 0 16 ++ dig
  let tail :=
    (v.desc.drop 64).take (16 * kNreg v.desc) ++
      (List.range n).flatMap (fun b => toBytes (Sparse.read 0 v.crcs b : W64).toNat 8)
  head state (shake256 (head 0 (toBytes 0 64) ++ tail) 64) ++ tail

/-- A block sent from the staging buffer to every buddy (R339, step 4). -/
def sendBlock (b : Nat) (s : State) : State :=
  match s.eng.save with
  | none => s
  | some v =>
    match Sparse.find? v.staging b with
    | none => s
    | some bytes =>
      let s := slotWrite (manRoom v.desc + b * 65536) bytes s
      modSave (fun v => { v with staging := Sparse.drop v.staging b, blocks := Sparse.drop v.blocks b }) s

/-- Staged blocks sent (R339: they go first). -/
def sendStaged (s : State) : State :=
  match s.eng.save with
  | none => s
  | some v => if v.phase = .blocks then forEach (v.staging.map (·.1)) sendBlock s else s

/-- The end of a save or restore: its signal, its status, RESULT (R341, R342). -/
def endSave (s : State) : State :=
  match s.eng.save with
  | none => s
  | some v =>
    let s := disown (.ckpt 0) (disown (.ckpt 1) { s with eng := { s.eng with save := none, protect := [] } })
    let s := settleRx s
    let g := if kSigv v.desc then endSignal v.ctx.val (kSigref v.desc) (BitVec.ofNat 32 (kSiginc v.desc)) 2 s
      else ((.ok, 0), s)
    let bad : Status × Nat := match v.bad with | some b => (b, if b = .dieLost then v.lost.toNat else 0) | none => (.ok, 0)
    let st := worse (worse v.st bad) g.1
    let yes (i : Nat) : Nat := match v.buddies[i]? with | some b => b2n b.committed | none => 0
    let result := if v.restore then v.gen + 2 ^ 32 * v.supplied.toNat else yes 0 + 2 * yes 1 + 2 ^ 32 * v.copied
    completeCmd v.q.val v.uid st.1 st.2 result g.2

/-- Whether a save's step has been answered by every buddy that takes part. -/
def stepAnswered (v : Save) (s : State) : Bool := (liveBuddies v).all (fun i => !buddyOpen s i)

/-- A save goes from step to step while each is answered (R339, R341). -/
def saveAdvance : Nat → State → State
  | 0, s => s
  | n + 1, s =>
    match s.eng.save with
    | none => s
    | some v =>
      if v.restore || !stepAnswered v s then s
      else
        match v.phase with
        | .clearing => saveAdvance n (sendStaged (modSave (fun v => { v with phase := .blocks }) s))
        | .blocks =>
          if !v.staging.isEmpty then saveAdvance n (sendStaged s)
          else if !v.blocks.isEmpty then s
          else if v.bad.isSome || (liveBuddies v).isEmpty then endSave s
          else saveAdvance n (modSave (fun v => { v with phase := .manifest }) (slotWrite 0 (manifest v s.net.nodeId.toNat 0) s))
        | .manifest =>
          saveAdvance n (modSave (fun v => { v with phase := .commit }) (slotWrite 4 (toBytes 1 4) s))
        | _ =>
          endSave (modSave (fun v => { v with buddies := v.buddies.map (fun b => { b with committed := b.committed || b.live }) }) s)

/-- Steps that one event may run through. -/
def saveSteps : Nat := 6

/-- The sixteen 4 KiB pieces of a block translated; each must lie in visible HBM (R337). -/
def blockPieces (ctx va : Nat) (s : State) : Except (Status × Nat) (List Nat) × State :=
  let x := xlatRange .hub ctx .load false va 65536 s
  match x.1.2 with
  | some e => (.error (xresStatus e), x.2)
  | none =>
    if x.1.1.all (fun p => hbmVisible p.pa) then (.ok (x.1.1.map (·.pa)), x.2)
    else (.error (.xlateFault, xreasonCode .perm), x.2)

/-- Every block translated, up to the first that fails. -/
def allPieces (ctx : Nat) : List Nat → State → Except (Status × Nat) (List (List Nat)) × State
  | [], s => (.ok [], s)
  | va :: rest, s =>
    let r := blockPieces ctx va s
    match r.1 with
    | .error e => (.error e, r.2)
    | .ok ps =>
      let t := allPieces ctx rest r.2
      (match t.1 with
       | .ok l => .ok (ps :: l)
       | .error e => .error e, t.2)

/-- READ frames for a range of a buddy's window. -/
def buddyRead (i : Nat) (b : Buddy) (take : Nat → List PB → State → State) (at_ : Nat) : Nat → Nat → State → State
  | 0, _, s => s
  | n + 1, left, s =>
    if left = 0 then s
    else
      let m := min left (maxPayload s)
      let f := frameTo b.node 2 s
      let f := { f with win := BitVec.ofNat 12 b.win, arg := BitVec.ofNat 64 at_, arg2 := BitVec.ofNat 32 m }
      let r := sendReq b.node (.ckpt i) tRead f s
      let s := match r.1 with
        | .answered d => take at_ d r.2
        | x => buddyRes i b.node x r.2
      buddyRead i b take (at_ + m) n (left - m) s

/-! ### Restores -/

/-- A piece of a manifest that arrived (R342, step 1). -/
def takeManifest (at_ : Nat) (d : List PB) (s : State) : State :=
  modSave (fun v =>
    let second := decide (slotBase v.desc 1 ≤ at_)
    let v := if anyPoison d then { v with manBad := setBit v.manBad (b2n second) true } else v
    if second then { v with man1 := patch v.man1 (at_ - slotBase v.desc 1) (plain d) }
    else { v with man0 := patch v.man0 at_ (plain d) }) s

/-- A piece of a block that arrived (R342, step 4), a poisoned one marking its block, or of the head of the other buddy's manifest. -/
def takeBlock (at_ : Nat) (d : List PB) (s : State) : State :=
  modSave (fun v =>
    let base := slotBase v.desc (v.gen % 2)
    let o := at_ - base - manRoom v.desc
    if at_ < base + manRoom v.desc then
      { v with man1 := patch v.man1 (at_ - base) (plain d), manBad := if anyPoison d then setBit v.manBad 1 true else v.manBad }
    else
    let b := o / 65536
    let old := (Sparse.find? v.staging b).getD (List.replicate 65536 0)
    { v with staging := Sparse.insert v.staging b (patch old (o % 65536) (plain d))
             crcs := if anyPoison d then Sparse.insert v.crcs b 1 else v.crcs }) s

/-- Both manifests asked of a buddy. -/
def askManifests (i : Nat) (s : State) : State :=
  match s.eng.save with
  | none => s
  | some v =>
    match v.buddies[i]? with
    | none => s
    | some b =>
      let n := manBytes v.desc
      let z := List.replicate n (0 : Byte)
      let s := modSave (fun v => { v with buddy := i, man0 := z, man1 := z, manBad := 0, phase := .readManifests }) s
      let s := buddyRead i b takeManifest 0 (n / 1024 + 1) n s
      buddyRead i b takeManifest (slotBase v.desc 1) (n / 1024 + 1) n s

/-- A manifest's fields (R338). -/
def mGen (m : List Byte) : Nat := leAt m 8 4

/-- Whether a manifest is of a complete proof. -/
def manComplete (m : List Byte) : Bool := leAt m 0 4 == 1 && leAt m 4 4 == 1

/-- Whether a manifest's DIGEST holds (R338). -/
def manDigest (m : List Byte) : Bool :=
  (m.drop 64).take 64 == shake256 (m.take 4 ++ toBytes 0 4 ++ (m.drop 8).take 56 ++ toBytes 0 64 ++ m.drop 128) 64

/-- The proof that a restore takes (R342, step 2), and whether its manifest arrived poisoned. -/
def chooseProof (v : Save) : Option (List Byte × Bool) :=
  let proof (second : Bool) : List Byte × Bool := if second then (v.man1, v.manBad.getLsbD 1) else (v.man0, v.manBad.getLsbD 0)
  if kGen v.desc = 0 then
    if manComplete v.man0 && manComplete v.man1 then
      some (proof (reached (BitVec.ofNat 32 (mGen v.man1)) (BitVec.ofNat 32 (mGen v.man0))))
    else if manComplete v.man0 then some (proof false)
    else if manComplete v.man1 then some (proof true)
    else none
  else
    let m := proof (kGen v.desc % 2 == 1)
    if manComplete m.1 && mGen m.1 == kGen v.desc then some m else none

/-- Whether a manifest that could hold the proof asked for arrived poisoned: with GEN ≠ 0 that of slot GEN mod 2 (R342). -/
def Save.manLost (v : Save) : Bool := if kGen v.desc = 0 then v.manBad != 0 else v.manBad.getLsbD (kGen v.desc % 2)

/-- Whether a manifest's regions have the descriptor's lengths (R342, step 3). -/
def manRegions (d m : List Byte) : Bool :=
  leAt m 16 4 == kNreg d && (List.range (kNreg d)).all (fun i => leAt m (136 + 16 * i) 8 == kLen d i)

/-- One block asked of a buddy. -/
def askBlock (i b : Nat) (s : State) : State :=
  match s.eng.save with
  | none => s
  | some v =>
    match v.buddies[i]? with
    | none => s
    | some y =>
      buddyRead i y takeBlock (slotBase v.desc (v.gen % 2) + manRoom v.desc + b * 65536) (65536 / 1024 + 1) 65536 s

/-- A restore that ends before anything is written: with the status given, or, where no buddy has answered, with what the buddies
came to. -/
def endRestore (st : Status × Nat) (s : State) : State :=
  endSave (modSave (fun v => { v with bad := none, st := if st.1 = .ok then v.st else st }) s)

/-- Steps 2 and 3 of R342 once both manifests are here; a DIGEST that fails, and a manifest that arrives poisoned, is looked for at the
other buddy. -/
def chooseAndRead (s : State) : State :=
  match s.eng.save with
  | none => s
  | some v =>
    let retry (s : State) : State :=
      if v.buddy = 0 ∧ 1 < v.buddies.length then askManifests 1 s else endRestore (.poison, 0) s
    match chooseProof v with
    | none => if v.manLost then retry s else endRestore (.illegal, 0x02) s
    | some (m, bad) =>
      if bad then retry s
      else if !manRegions v.desc m then endRestore (.illegal, 0x02) s
      else if !manDigest m then retry s
      else
        let n := nblk v.desc
        let s := modSave (fun v => { v with
          gen := mGen m, man0 := m, man1 := [], manBad := 0, phase := .readBlocks, st := (.ok, 0), crcs := [], staging := []
          blocks := (List.range n).map (fun b => (b, .waiting)) }) s
        forEach (List.range n) (askBlock v.buddy) s

/-- Bytes at the head of a manifest that say which proof it is of: FORMAT, STATE, GEN. -/
def manHead : Nat := 12

/-- A block asked of the other buddy, with the head of its manifest (R342): its proof must be of the same GEN. -/
def askOther (i b : Nat) (s : State) : State :=
  match s.eng.save with
  | none => s
  | some v =>
    match v.buddies[i]? with
    | none => s
    | some y =>
      let s := modSave (fun v => { v with man1 := List.replicate manHead 0, manBad := 0 }) s
      askBlock i b (buddyRead i y takeBlock (slotBase v.desc (v.gen % 2)) 1 manHead s)

/-- Whether the other buddy holds a complete proof of the GEN that is restored. -/
def otherProof (v : Save) : Bool := v.manBad == 0 && manComplete v.man1 && mGen v.man1 == v.gen

/-- Whether a range of a proof has a READ that is not answered. -/
def rangeOpen (lo n : Nat) (s : State) : Bool :=
  s.net.peers.any (fun e => e.2.reqs.any (fun r =>
    (r.owner == .ckpt 0 || r.owner == .ckpt 1) && decide (lo ≤ r.frame.arg.toNat) && decide (r.frame.arg.toNat < lo + n)))

/-- Whether a block has a READ that is not answered. -/
def blockOpen (v : Save) (b : Nat) (s : State) : Bool :=
  let base := slotBase v.desc (v.gen % 2)
  rangeOpen (base + manRoom v.desc + b * 65536) 65536 s || rangeOpen base manHead s

/-- A block written to its region. -/
def restoreBlock (b : Nat) (data : List PB) (s : State) : State :=
  match s.eng.save with
  | none => s
  | some v =>
    let w := engineWrite v.ctx.val ((blockVas v.desc).getD b 0) data (modSave (fun v => { v with own := true }) s)
    let s := forEach v.hits (fun h s => blur h.1 h.2 s) w.2
    noteSave w.1.st (modSave (fun v => { v with
      own := false, blocks := Sparse.drop v.blocks b, staging := Sparse.drop v.staging b, crcs := Sparse.drop v.crcs b }) s)

/-- A block whose READs are all answered (R342, step 4): checked and written, or read from the other buddy, or written
poisoned. -/
def settleBlock (b : Nat) (s : State) : State :=
  match s.eng.save with
  | none => s
  | some v =>
    match Sparse.find? v.blocks b with
    | none => s
    | some ph =>
      if blockOpen v b s then s
      else
        let i := if ph = .waiting then v.buddy else 1 - v.buddy
        let bytes := (Sparse.find? v.staging b).getD []
        let alive : Bool := match v.buddies[i]? with | some y => y.live | none => false
        let good := alive && (ph == .waiting || otherProof v) && bytes.length == 65536 && (Sparse.find? v.crcs b).isNone &&
          crc64 bytes == leAt v.man0 (128 + 16 * kNreg v.desc + 8 * b) 8
        if good then
          restoreBlock b (clean bytes) (modSave (fun v => { v with supplied := setBit v.supplied i true }) s)
        else if ph = .waiting ∧ v.buddies.length = 2 then
          askOther (1 - v.buddy) b (modSave (fun v => { v with
            blocks := Sparse.insert v.blocks b .staged, staging := Sparse.drop v.staging b, crcs := Sparse.drop v.crcs b }) s)
        else restoreBlock b (poisoned 65536) s

/-- A restore goes on as answers arrive (R342). -/
def restoreAdvance : Nat → State → State
  | 0, s => s
  | n + 1, s =>
    match s.eng.save with
    | none => s
    | some v =>
      if !v.restore then s
      else
        match v.phase with
        | .readManifests =>
          if buddyOpen s v.buddy then s
          else
            let alive : Bool := match v.buddies[v.buddy]? with | some y => y.live | none => false
            if alive then restoreAdvance n (chooseAndRead s)
            else if v.buddy = 0 ∧ 1 < v.buddies.length then restoreAdvance n (askManifests 1 s)
            else endRestore (.ok, 0) s
        | .readBlocks =>
          let s := forEach (v.blocks.map (·.1)) settleBlock s
          match s.eng.save with
          | some v' => if v'.blocks.isEmpty then endSave s else
              if v'.blocks = v.blocks then s else restoreAdvance n s
          | none => s
        | _ => s

/-- The engine goes on with what it runs. -/
def ckptAdvance (s : State) : State :=
  match s.eng.save with
  | none => s
  | some v => if v.restore then restoreAdvance (v.blocks.length + saveSteps) s else saveAdvance saveSteps s

/-! ### Starting -/

/-- A save or restore begins (R339, steps 1-3; R342, step 1): every page of its regions must translate to HBM. -/
def beginSave (v : Save) (s : State) : State :=
  let r := allPieces v.ctx.val (blockVas v.desc) s
  match r.1 with
  | .error e => completeCmd v.q.val v.uid e.1 e.2 0 r.2
  | .ok ps =>
    let v := { v with pas := ps, blocks := if v.restore then [] else (List.range ps.length).map (fun b => (b, .waiting)) }
    let s := { r.2 with eng := { r.2.eng with save := some v } }
    if v.restore then ckptAdvance (askManifests 0 s)
    else
      let s :=
        if s.glb.drvAccept.getLsbD 4 then
          { s with eng := { s.eng with
              protect := (ps.flatten).foldl (fun m pa => KeySet.add m (pa / 4096)) s.eng.protect } }
        else s
      ckptAdvance (slotWrite 4 (toBytes 0 4) s)

/-- Waiting saves and restores begin, one at a time, in start order (R339). -/
def fillSaves : Nat → State → State
  | 0, s => s
  | n + 1, s =>
    if s.eng.save.isSome then s
    else
      match s.eng.saveQ with
      | [] => s
      | v :: rest => fillSaves n (beginSave v { s with eng := { s.eng with saveQ := rest } })

/-- The engine taken up by the next that waits; while memory that this needs must wait, it is not (LOG 144). -/
def settleSaves (s : State) : State := orWait (fillSaves s.eng.saveQ.length) s

/-- CHECKPOINT_SAVE and CHECKPOINT_RESTORE (R337): the descriptor is read and checked, and the operation waits its turn. -/
def ckptOp (restore : Bool) (q n : Nat) (cmd : Cmd) (s : State) : State :=
  let len := leAt cmd.bytes 24 4
  let r := engineRead cmd.ctx (leAt cmd.bytes 16 8) len s
  if r.1.st.1 ≠ .ok then completeCmd q n r.1.st.1 r.1.st.2 0 r.2
  else
    let d := plain r.1.data
    if len < 64 ∨ len ≠ 64 + 16 * kNreg d then illegalCmd q n 0x02 r.2
    else
      match ckptIllegal d restore with
      | some k => illegalCmd q n k r.2
      | none =>
        let buddies := (List.range (kNbud d)).map (fun i => (⟨BitVec.ofNat 32 (kBuddy d i), false, false, false⟩ : Buddy))
        let v : Save :=
          { q := Fin.ofNat 1024 q, uid := n, ctx := Fin.ofNat 64 cmd.ctx, restore := restore, desc := d, gen := kGen d
            phase := if restore then .readManifests else .clearing
            pas := [], blocks := [], staging := [], copied := 0, bad := none, st := (.ok, 0), buddies := buddies, crcs := []
            man0 := [], man1 := [], buddy := 0, supplied := 0 }
        let s := setPhase q n .running r.2
        settleSaves { s with eng := { s.eng with saveQ := s.eng.saveQ ++ [v] } }

/-- CHECKPOINT_SAVE (R339). -/
def execCheckpointSave (q : QId) (n : Nat) (hw : List HostByte) (s : State) : Host.Outcome State Fault Refusal :=
  .next (whenServed (fun s => onCmd q.val n 0x38 (ckptOp false q.val n) (hostStores hw s)) s)

/-- CHECKPOINT_RESTORE (R342). -/
def execCheckpointRestore (q : QId) (n : Nat) (hw : List HostByte) (s : State) : Host.Outcome State Fault Refusal :=
  .next (whenServed (fun s => onCmd q.val n 0x39 (ckptOp true q.val n) (hostStores hw s)) s)

/-- CKPT_HELD_WRITE (R340): a write reaches a protected block: the block is copied ahead and the write performed, or, with the
staging buffer full, the write waits. -/
def execCkptHeldWrite (r : Requester) (pa : Nat) (data : List Byte) (s : State) : Host.Outcome State Fault Refusal :=
  .next (whenServed (fun s =>
    if isProtected pa s then
      (unitPieces pa data.length).foldl (fun s p =>
        (poolWrite r .allocating p.1 (clean ((data.drop (p.1 - pa)).take p.2)) s).2) s
    else s) s)

/-- The lowest block still to be read. -/
def lowestWaiting (v : Save) : Option Nat :=
  (List.find? (fun (e : Nat × BlockState) => e.2 == .waiting) v.blocks).map (·.1)

/-- A block read completes (R339, R340): staged blocks go first, the block is sent, held writes go on. That of a block copied ahead sends
what is staged. -/
def blockReadDone (b : Nat) (s : State) : State :=
  match s.eng.save with
  | none => s
  | some v =>
    if v.phase = .blocks ∧ lowestWaiting v = some b then
      let s := sendStaged s
      let s := sendBlock b (ckptReadBlock b false s)
      settleSaves (ckptAdvance (sendStaged (settleRx s)))
    else if v.phase = .blocks ∧ (Sparse.find? v.staging b).isSome then settleSaves (ckptAdvance (sendStaged s))
    else s

/-- CKPT_BLOCK_READ_COMPLETE (R340): frames made of staged words found uncorrectable are discarded (R388). -/
def execCkptBlockReadComplete (e : BlockEnd) (s : State) : Host.Outcome State Fault Refusal :=
  .next (whenServed (fun s => unsent e.err s (blockReadDone e.block (stagingFlaw e.err s))) s)

end Sys2Proof.Machine
end

