-- ==== Sys2Proof/Machine/NetEnd.lean ====
section
/-! DEFINITION. Answers and lost peers (R317, R319-R321, R328, R329): what ACK, NAK, READ_RESP and an expired request mean to
the operation behind a request. -/

namespace Sys2Proof.Machine

/-- A kernel's remote signal no longer outstanding; its first refusal or loss is kept (R328, R329). -/
def kernelSignalDone (kid : Nat) (win peer : Option Nat) (s : State) : State :=
  finishKernel kid (s.modKernel kid (fun k => { k with
    remote := k.remote - 1
    winFault := (match k.winFault with | some w => some w | none => win)
    peerLost := (match k.peerLost with | some p => some p | none => peer) }))

/-- A buddy whose STATE = 1 is answered has committed (R339). -/
def noteCommit (i : Nat) (s : State) : State :=
  match s.eng.save with
  | some v =>
    if v.phase = .commit ∧ !buddyOpen s i then modBuddy i (fun b => { b with committed := b.committed || b.live }) s else s
  | none => s

/-- A request performed at its receiver. -/
def ownerDone (o : NetOwner) (s : State) : State :=
  match o with
  | .kernel kid => kernelSignalDone kid none none s
  | .cmd q uid => completeCmd q.val uid .ok 0 0 s
  | .coll id => collAnswered id s
  | .ckpt i => settleSaves (ckptAdvance (noteCommit i s))
  | .power => s
  | .none => s

/-- A request refused by its receiver (R328, R329). -/
def ownerRefused (o : NetOwner) (node reason : Nat) (s : State) : State :=
  let detail := reason + 4096 * node
  match o with
  | .kernel kid => kernelSignalDone kid (some detail) none s
  | .cmd q uid => completeCmd q.val uid .windowFault detail 0 s
  | .coll id => collAnswered id (noteColl id (.windowFault, detail) s)
  | .ckpt i => settleSaves (ckptAdvance (buddyRes i node (.refused reason) s))
  | .power => s
  | .none => s

/-- A request ended by the loss of its receiver (R320, R328). -/
def ownerLost (o : NetOwner) (node : Nat) (s : State) : State :=
  match o with
  | .kernel kid => kernelSignalDone kid none (some node) s
  | .cmd q uid => completeCmd q.val uid .peerLost node 0 s
  | .coll _ => s
  | .ckpt i => buddyRes i node .lost s
  | .power => s
  | .none => s

/-- A node declared lost (R320): its requests end, collectives whose table names it end, its grants leave (R368). -/
def loseNode (node : Nat) (s : State) : State :=
  let r := declareLost node s
  let s := dropGrants node r.2
  let s := forEach r.1 (fun o s => ownerLost o node s) s
  settleSaves (ckptAdvance (loseCollPeer node s))

/-! ### Requests received -/

/-- A peer that a request shows to have restarted (R343): where a collective names it, it is lost, and ABORT goes out; on a first contact
none is. -/
def restarted (node : Nat) (s : State) : State :=
  if (s.peer node).heldIncarn.isSome && (s.eng.colls ++ s.eng.collQ).any (fun c => c.names node) then loseNode node s else s

/-- A request of TYPE `typ` received (R317, R321): `dup` answers a duplicate, `perform` performs a new one and says whether it was. One
that waits at its home is not answered before it has been performed. -/
def rxRequest (typ : Nat) (f : Frame) (dup : State → State) (perform : State → Bool × State) (s : State) : State :=
  let t := rxTake typ f s
  if !t.1 then t.2
  else
    let node := f.src.toNat
    let age := incarnAge (t.2.peer node).heldIncarn f.incarn
    if age = .older then t.2
    else
      let s := { t.2 with net := { t.2.net with nodeLock := true } }
      let s := trace 0 6 (frameRecord f.quad.val f f.src + 2 ^ 96) s
      let s := if age = .newer then newIncarn node f.incarn f.psn (restarted node s) else s
      if (s.peer node).duplicate f.psn then dup s
      else if s.eng.heldRx.any (fun h => h.frame.src == f.src && h.frame.psn == f.psn) then s
      else
        let r := perform s
        if r.1 then r.2.modPeer node (fun p => p.perform f.psn) else r.2

/-- WRITE_FRAME (R317). -/
def execWriteFrame (f : Frame) (s : State) : Host.Outcome State Fault Refusal :=
  .next (whenServed (rxRequest tWrite f (sendAck f) (performWrite f)) s)

/-- READ_FRAME (R317): a duplicate is read and answered again. -/
def execReadFrame (f : Frame) (s : State) : Host.Outcome State Fault Refusal :=
  .next (whenServed (rxRequest tRead f (fun s => (performRead f s).2) (performRead f)) s)

/-- SIGNAL_FRAME (R262, R317). -/
def execSignalFrame (f : Frame) (s : State) : Host.Outcome State Fault Refusal :=
  .next (whenServed (rxRequest tSignal f (sendAck f) (performSignal f)) s)

/-- REDUCE_WRITE (R317). -/
def execReduceWrite (f : Frame) (s : State) : Host.Outcome State Fault Refusal :=
  .next (whenServed (rxRequest tReduce f (sendAck f) (performReduce f)) s)

/-- A BUDGET frame received in the row of a KIND. -/
def rxBudget (kind : Nat) (act : Frame → State → State) (f : Frame) (s : State) : State :=
  if fld f.arg 1 0 = kind then rxRequest tBudget f (sendAck f) (budgetFrame kind (act f) f) s
  else if fld f.arg 1 0 = 3 then rxRequest tBudget f (sendAck f) (reservedBudget f) s
  else s

/-- REPORT (R364). -/
def execReport (f : Frame) (s : State) : Host.Outcome State Fault Refusal :=
  .next (whenServed (rxBudget kReport takeReport f) s)

/-- GRANT (R367). -/
def execGrant (f : Frame) (s : State) : Host.Outcome State Fault Refusal :=
  .next (whenServed (rxBudget kGrant takeGrant f) s)

/-- RETURN (R368). -/
def execRet (f : Frame) (s : State) : Host.Outcome State Fault Refusal :=
  .next (whenServed (rxBudget kReturn takeReturn f) s)

/-- ABORT (R335). -/
def execAbortFrame (f : Frame) (s : State) : Host.Outcome State Fault Refusal :=
  .next (whenServed (rxRequest tAbort f (sendAck f) (performAbort f)) s)

/-! ### Answers received -/

/-- Data that answers a READ (R331, R342). -/
def takeData (r : NetReq) (d : List PB) (s : State) : State :=
  match r.owner with
  | .coll id =>
    match s.coll? id with
    | some c =>
      let w := engineWrite c.ctx.val (dDst c.desc + (r.frame.arg.toNat - dOffset c.desc)) d s
      noteColl id w.1.st w.2
    | none => s
  | .ckpt _ =>
    match s.eng.save with
    | some v => if v.phase = .readManifests then takeManifest r.frame.arg.toNat d s else takeBlock r.frame.arg.toNat d s
    | none => s
  | _ => s

/-- A response of TYPE `typ` received (R321): from a newer incarnation it declares the receiver lost, and clears that state at once. -/
def rxResponse (typ : Nat) (f : Frame) (act : State → State) (s : State) : State :=
  let t := rxTake typ f s
  if !t.1 then t.2
  else
    let node := f.src.toNat
    let held := (t.2.peer node).heldIncarn
    let s := { t.2 with net := { t.2.net with nodeLock := true } }
    match held with
    | none => act (s.modPeer node (fun p => { p with heldIncarn := some f.incarn }))
    | some _ =>
      match incarnAge held f.incarn with
      | .older => t.2
      | .same => act s
      | .newer => newIncarn node f.incarn 0 (loseNode node s)

/-- Whether a frame came on an Ethernet quad. -/
def onEth (f : Frame) (s : State) : Bool := (s.quad f.quad.val).role != 1

/-- An ACK (R317): every request it covers is performed. -/
def ackOp (f : Frame) (s : State) : State :=
  let first : W32 := BitVec.ofNat 32 (fld f.arg 31 0)
  let count := fld f.arg 63 32
  let r := takeAnswered f.src.toNat (onEth f s) f.ece
    (fun r => decide ((r.psn - first).toNat < count) && r.typ != tRead) s
  forEach r.1 (fun q s => ownerDone q.owner s) r.2

/-- ACK (R317). -/
def execAck (f : Frame) (s : State) : Host.Outcome State Fault Refusal := .next (whenServed (rxResponse tAck f (ackOp f)) s)

/-- A NAK (R317). -/
def nakOp (f : Frame) (s : State) : State :=
  let r := takeAnswered f.src.toNat (onEth f s) false (fun r => r.psn == f.psn) s
  forEach r.1 (fun q s => ownerRefused q.owner f.src.toNat (f.arg2.toNat % 8) s) r.2

/-- NAK (R317). -/
def execNak (f : Frame) (s : State) : Host.Outcome State Fault Refusal := .next (whenServed (rxResponse tNak f (nakOp f)) s)

/-- A READ_RESP (R316): data, or the reason of a refusal. -/
def readRespOp (f : Frame) (s : State) : State :=
  let r := takeAnswered f.src.toNat (onEth f s) f.ece (fun r => r.psn == f.psn && r.typ == tRead) s
  forEach r.1 (fun q s =>
    if f.arg2 = 0 then ownerDone q.owner (takeData q (framePB f) s)
    else ownerRefused q.owner f.src.toNat (f.arg2.toNat % 8) s) r.2

/-- READ_RESP (R316). -/
def execReadResp (f : Frame) (s : State) : Host.Outcome State Fault Refusal :=
  .next (whenServed (rxResponse tReadResp f (readRespOp f)) s)

/-- A request whose timeout has expired (R319): sent again, or, after the last retransmission, its receiver is lost. -/
def timeoutOp (node psn : Nat) (s : State) : State :=
  let p := s.peer node
  match p.reqs.findIdx? (fun r => r.psn.toNat == psn && !r.held) with
  | none => s
  | some i =>
    match p.reqs[i]? with
    | none => s
    | some r =>
      if s.net.retries.toNat ≤ r.tries then loseNode node s
      else
        let r := { r with tries := r.tries + 1 }
        transmit node r (pmcAdd 0 4 1 (s.setPeer node { p with reqs := p.reqs.set i r }))

/-- REQUEST_TIMEOUT (R319). -/
def execRequestTimeout (node : BitVec 20) (psn : W32) (s : State) : Host.Outcome State Fault Refusal :=
  .next (whenServed (timeoutOp node.toNat psn.toNat) s)

end Sys2Proof.Machine
end

