-- ==== Sys2Proof/Machine/Queues.lean ====
section
/-! DEFINITION. Submission and completion queues (R275-R286, R297): doorbells, fetching under the seal, starting a command,
posting an entry, enabling and disabling. -/

namespace Sys2Proof.Machine

/-! ### Rings -/

/-- Whether a ring lies in visible HBM or in the host range (R275). -/
def ringPlaced (base bytes : Nat) : Bool :=
  hbmVisibleRange base bytes || (decide (0x100000000000 ≤ base) && decide (base + bytes ≤ 0x200000000000))

/-- The port of a ring's accesses (R280): HBM rings snoop, host rings are plain PCIe accesses of the queue's function. -/
def ringPort (base fn : Nat) : Port := ⟨.hub, fn, .allocating, decide (base < 0x6000000000)⟩

/-- Whether an origin may write the queue registers (R275). -/
def originQueue : Origin → Bool
  | .pf0 => true
  | .core _ _ => true
  | .zoilo _ => true
  | _ => false

/-- Whether an origin may ring a doorbell of a queue that a function owns (R276). -/
def originBell (o : Origin) (func : Nat) : Bool :=
  match o with
  | .vf n => func == n.val + 1
  | o => originQueue o

/-- An ACTIVE queue put in ERROR (R280, R305); one that drains goes on to DISABLED (R297). -/
def errSq (q : Nat) (e : QErr) (s : State) : State :=
  s.modSq q (fun x => if x.state = .active then { x with state := .error, err := e, retries := none } else x)

/-- An ACTIVE completion queue put in ERROR. -/
def errCq (q : Nat) (e : QErr) (s : State) : State :=
  s.modCq q (fun x => if x.state = .active then { x with state := .error, err := e } else x)

/-! ### Doorbells -/

/-- BAR0 offset of a queue's doorbell page (R276). -/
def bellOff (q : Nat) : Nat := 0x1000000 + 0x1000 * q

/-- DOORBELL (R276, R393). -/
def logDoorbell (off v : Nat) (s : State) : State :=
  logRas { cls := .access, code := 0x0003, unit := unitNone, addr := off, info := v } s

/-- A write of SQ_TAIL (R276). -/
def sqTailOp (o : Origin) (q : Nat) (t : W32) (s : State) : State :=
  let x := s.sq q
  if !originBell o x.func.toNat then logDoorbell (bellOff q) t.toNat s
  else if x.state = .disabled then s
  else if 2 ^ 31 ≤ (t - x.tail).toNat then logDoorbell (bellOff q) t.toNat s
  else if ringSize x.l < (t - x.head).toNat then errSq q .tail s
  else s.modSq q (fun x => { x with tail := t })

/-- SQ_TAIL (R276). -/
def execSqTail (o : Origin) (q : QId) (v : W32) (s : State) : Host.Outcome State Fault Refusal :=
  .next (whenLive (sqTailOp o q.val v) s)

/-- A write of CQ_HEAD (R276). -/
def cqHeadOp (o : Origin) (q : Nat) (h : W32) (s : State) : State :=
  let x := s.cq q
  if !originBell o x.func.toNat then logDoorbell (bellOff q + 8) h.toNat s
  else if x.state = .disabled then s
  else if (h - x.head).toNat < 2 ^ 31 ∧ (x.tail - h).toNat ≤ ringSize x.l then s.modCq q (fun x => { x with head := h })
  else logDoorbell (bellOff q + 8) h.toNat s

/-- CQ_HEAD (R276). -/
def execCqHead (o : Origin) (q : QId) (v : W32) (s : State) : Host.Outcome State Fault Refusal :=
  .next (whenLive (cqHeadOp o q.val v) s)

/-! ### Fetching -/

/-- The phase of a position (R275): 1 in even passes. -/
def phaseOf (pos : W32) (size : Nat) : Nat := if pos.toNat / size % 2 = 0 then 1 else 0

/-- Slots from a position on, the ring wrapping (R278). -/
def readSlots (x : Sq) (pos : W32) (first : Nat) : Nat → State → ReadRes × State
  | 0, s => (⟨[], {}⟩, s)
  | n + 1, s =>
    let base := x.base.toNat * 4096
    let i := (pos.toNat + first) % ringSize x.l
    let r := memRead (ringPort base x.func.toNat) (base + 64 * i) 64 s
    let t := readSlots x pos (first + 1) n r.2
    (⟨r.1.data ++ t.1.data, r.1.met.and t.1.met⟩, t.2)

/-- Which conditions of R278 a command's image meets: all, all but SEQ, or fewer. -/
inductive Seal where
  | good | seqOnly | bad
deriving DecidableEq, Repr

/-- The seal of an image (R278). -/
def sealOf (x : Sq) (b : List Byte) : Seal :=
  let w := leAt b 12 4
  let ok := w / 2 ^ 31 == phaseOf x.head (ringSize x.l) && nfld w 30 16 == 0 &&
    crc16 (patch b 12 [0, 0, 0, 0]) == nfld w 15 0
  if !ok then .bad else if leAt b 4 4 = x.nextSeq.toNat then .good else .seqOnly

/-- What one reading of the command at HEAD finds (R280). -/
inductive Reading where
  | taken (b : List Byte)
  | poison
  | unreachable
  | torn (opc : Nat) (seqOnly : Bool)
deriving DecidableEq, Repr

/-- One reading of the command at HEAD (R280). -/
def readCommand (q : Nat) (s : State) : Reading × State :=
  let x := s.sq q
  let r := readSlots x x.head 0 1 s
  if r.1.met.unreach then (.unreachable, r.2)
  else if r.1.met.poison || r.1.met.dies != 0 then (.poison, r.2)
  else
    let b := plain r.1.data
    let len := leAt b 2 1 % 64 + 1
    if (x.tail - x.head).toNat < len then (.torn (leAt b 0 1) false, r.2)
    else
      let t := readSlots x x.head 1 (len - 1) r.2
      if t.1.met.unreach then (.unreachable, t.2)
      else if t.1.met.poison || t.1.met.dies != 0 then (.poison, t.2)
      else
        let all := b ++ plain t.1.data
        match sealOf x all with
        | .good => (.taken all, t.2)
        | .seqOnly => (.torn (leAt b 0 1) true, t.2)
        | .bad => (.torn (leAt b 0 1) false, t.2)

/-- Re-reads before a queue is torn (R280). -/
def maxRetries : Nat := 32

/-- One turn of the loop of R280, after `n` re-reads. -/
def fetchTurn (q n : Nat) (s : State) : State :=
  let r := readCommand q s
  let s := r.2
  match r.1 with
  | .poison => errSq q .ringPoison s
  | .unreachable => errSq q .ringUnreachable s
  | .taken b =>
    let uid := s.uidNext
    let h := (s.sq q).head + BitVec.ofNat 32 (b.length / 64)
    let s := { s with uidNext := uid + 1 }
    s.modSq q (fun x => { x with
      head := h, nextSeq := x.nextSeq + 1, retries := none, fetched := x.fetched ++ [⟨uid, b, h, .started⟩] })
  | .torn opc seqOnly =>
    if n < maxRetries then s.modSq q (fun x => { x with retries := some (n + 1) })
    else
      let x := s.sq q
      let e : Entry :=
        { sq := Fin.ofNat 1024 q, status := .torn, opc := BitVec.ofNat 8 opc, seq := x.nextSeq, head := x.head
          detail := BitVec.ofNat 32 (n + 256 * b2n seqOnly), result := 0, irq := false, time := s.hub.tel, placed := false }
      errSq q .torn (queueEntry x.cq.toNat e s)

/-- Whether a queue has slots to fetch. -/
def mayFetch (q : Nat) (s : State) : Bool :=
  s.glb.ready && (s.sq q).state == .active && (s.sq q).tail != (s.sq q).head

/-- SQ_FETCH (R280). -/
def execSqFetch (q : QId) (hw : List HostByte) (s : State) : Host.Outcome State Fault Refusal :=
  .next (whenServed (fun s =>
    if mayFetch q.val s && (s.sq q.val).retries.isNone then fetchTurn q.val 0 (hostStores hw s) else s) s)

/-- SQ_FETCH_RETRY (R280): 500 ns after the last read. -/
def execSqFetchRetry (q : QId) (hw : List HostByte) (s : State) : Host.Outcome State Fault Refusal :=
  .next (whenServed (fun s =>
    match (s.sq q.val).retries with
    | some n => if mayFetch q.val s then fetchTurn q.val n (hostStores hw s) else s
    | none => s) s)

/-! ### Starting -/

/-- The opcodes (R287). -/
def knownOpc (opc : Nat) : Bool :=
  [0x00, 0x01, 0x02, 0x03, 0x10, 0x20, 0x21, 0x22, 0x23, 0x30, 0x38, 0x39, 0x40, 0x41, 0x42, 0x50, 0x51, 0x60, 0x70, 0x71,
   0x72].contains opc

/-- SCOPE of a TLB_INVALIDATE (R287). -/
def Cmd.scope (c : Cmd) : Nat := leAt c.bytes 16 1 % 4

/-- Admin-only opcodes (R287, R293). -/
def adminOnly (c : Cmd) : Bool :=
  [0x40, 0x41, 0x51, 0x60, 0x70, 0x71, 0x72].contains c.opc || (c.opc == 0x42 && c.scope == 3)

/-- Opcodes that accept a context in any state (R286). -/
def anyCtxState (c : Cmd) : Bool :=
  [0x00, 0x01, 0x50, 0x51, 0x60].contains c.opc || (c.opc == 0x42 && c.scope == 3)

/-- Whether the state of a context suits an opcode (R286). -/
def ctxStateOk (c : Cmd) (x : Ctx) : Bool :=
  let live := x.state == .active || x.state == .preempted
  if anyCtxState c then true
  else if c.opc = 0x70 then x.state == .free || (x.state == .draining && x.pending.isNone)
  else if c.opc = 0x71 then live
  else if c.opc = 0x72 then if leAt c.bytes 16 1 % 2 = 0 then x.state == .active else x.state == .preempted
  else live

/-- Opcodes that an exposed context may not run (R383). -/
def exposedOpc (opc : Nat) : Bool := [0x10, 0x20, 0x21, 0x22, 0x23, 0x30, 0x38].contains opc

/-- The dies to whose fences a context is exposed (R382). -/
def exposedMask (c : Nat) (s : State) : Nat :=
  (dieList.filter (fun d => (s.die d).exposeFound.getLsbD c)).foldl (fun m d => m + 2 ^ d) 0

/-- How a command that starts is refused (R12, R286, R383). -/
def startRefusal (q : Nat) (c : Cmd) (s : State) : Option (Status × Nat) :=
  let x := s.sq q
  if !knownOpc c.opc then some (.illegal, 0x01)
  else if !x.admin && adminOnly c then some (.illegal, 0x03)
  else if !x.admin && x.ctx.toNat != c.ctx then some (.illegal, 0x04)
  else if !ctxStateOk c (s.ctx c.ctx) then some (.illegal, 0x04)
  else if exposedOpc c.opc && s.glb.exposed.getLsbD c.ctx then some (.dieLost, exposedMask c.ctx s)
  else none

/-- Places of an SQ, and entries a CQ holds on the hub (R283). -/
def sqPlaces : Nat := 64
def cqHeld : Nat := 64

/-- Whether the next command of a queue may start (R283, R285, R378, R382, R401). -/
def mayStart (q : Nat) (c : Cmd) (s : State) : Bool :=
  let x := s.sq q
  (x.state == .active || x.state == .error) && decide (x.places < sqPlaces) &&
    decide ((s.cq x.cq.toNat).waiting.length < cqHeld) &&
    (!c.barrier || x.started.isEmpty) &&
    !(x.started.any (fun y => y.opc == 0x03)) &&
    ((x.admin && anyCtxState c) || !(dieList.any (fun d => (s.die d).exposing))) &&
    !(s.serviceDown 0 && s.serviceDown 1) &&
    (match s.glb.ctxBusy with
     | some k => if x.admin then c.ctx != k || anyCtxState c else x.ctx.toNat != k
     | none => true)

/-- Commands that read or write DRV_ACCEPT (R289, R291, R294, R405). -/
def readsDrv (c : Cmd) : Bool :=
  c.opc == 0x51 || c.opc == 0x70 || (c.opc == 0x50 && (leAt c.bytes 16 1 == 2 || leAt c.bytes 16 1 == 3))

/-- The order of the started commands that read or write DRV_ACCEPT with one more; those that have completed leave it (R405). -/
def joinDrv (q : Nat) (c : Cmd) (s : State) : State :=
  if readsDrv c then
    { s with glb := { s.glb with drvQ := s.glb.drvQ.filter (fun e => (startedCmd s e.1 e.2).isSome) ++ [(q, c.uid)] } }
  else s

/-- COMMAND_START (R285): the command at the head of the fetched ones takes a place, and ends at once where it is refused. -/
def startNext (q : Nat) (s : State) : State :=
  match (s.sq q).fetched with
  | [] => s
  | c :: rest =>
    if mayStart q c s then
      let s := s.modSq q (fun x => { x with fetched := rest, started := x.started ++ [c], places := x.places + 1 })
      let s := trace 0 0 (q + 2 ^ 16 * c.opc + 2 ^ 32 * c.seq) (pmcAdd 0 5 1 (joinDrv q c s))
      match startRefusal q c s with
      | some (st, d) => completeCmd q c.uid st d 0 s
      | none => s
    else s

/-- COMMAND_START (R285). -/
def execCommandStart (q : QId) (s : State) : Host.Outcome State Fault Refusal := .next (whenLive (startNext q.val) s)

/-! ### Posting -/

/-- The bytes of an entry at a position (R281). -/
def entryBytes (e : Entry) (phase : Nat) : List Byte :=
  toBytes (e.sq.val + 2 ^ 15 * phase + 2 ^ 16 * statusCode e.status + 2 ^ 24 * e.opc.toNat) 4 ++ toBytes e.seq.toNat 4 ++
    toBytes e.head.toNat 4 ++ toBytes e.detail.toNat 4 ++ toBytes e.result.toNat 8 ++ toBytes e.time.toNat 8

/-- The interrupt after an entry (R284). -/
def cqInterrupt (x : Cq) (e : Entry) (s : State) : State :=
  if x.irqall || e.irq || e.status != .ok then
    match x.irqmode.toNat with
    | 1 => sendMsix (Fin.ofNat 34 x.func.toNat) x.vector.toNat s
    | 2 => sendImsic x.file x.ident.toNat s
    | _ => s
  else s

/-- A place given back (R283). -/
def givePlace (e : Entry) (s : State) : State :=
  if e.placed then s.modSq e.sq.val (fun x => { x with places := x.places - 1 }) else s

/-- An entry that cannot be written (R305): counted, its place given back. -/
def dropEntry (q : Nat) (e : Entry) (s : State) : State :=
  givePlace e (s.modCq q (fun x => { x with dropped := satAdd x.dropped 1 }))

/-- The writes of an entry at an address (R282): one in HBM; in host memory bytes 4-31 first, then bytes 0-3. -/
def writeEntry (p : Port) (pa : Nat) (b : List Byte) (s : State) : Met × State :=
  if pa < 0x100000000000 then memWrite p pa (clean b) s
  else
    let w := memWrite p (pa + 4) (clean (b.drop 4)) s
    let v := memWrite p pa (clean (b.take 4)) w.2
    (w.1.and v.1, v.2)

/-- The first waiting entry posted at TAIL (R282-R284). -/
def postEntry (q : Nat) (s : State) : State :=
  let x := s.cq q
  match x.waiting with
  | [] => s
  | e :: rest =>
    if (x.state = .active ∨ x.state = .draining) ∧ (x.tail - x.head).toNat ≠ ringSize x.l then
      let base := x.base.toNat * 4096
      let i := x.tail.toNat % ringSize x.l
      let s := s.setCq q { x with waiting := rest }
      let w := writeEntry (ringPort base x.func.toNat) (base + 32 * i) (entryBytes e (phaseOf x.tail (ringSize x.l))) s
      if w.1.unreach then errCq q .ringUnreachable (dropEntry q e w.2)
      else if w.1.dies ≠ 0 then errCq q .ringPoison (dropEntry q e w.2)
      else cqInterrupt x e (givePlace e (w.2.modCq q (fun x => { x with tail := x.tail + 1 })))
    else s

/-- CQ_POST (R282). -/
def execCqPost (q : QId) (s : State) : Host.Outcome State Fault Refusal := .next (whenServed (postEntry q.val) s)

/-! ### Enabling and disabling -/

/-- BAR0 offsets of the queue registers (R275). -/
def sqOff (q : Nat) : Nat := 0x108000 + 0x20 * q
def cqOff (q : Nat) : Nat := 0x110000 + 0x20 * q

/-- An SQ enabled, or the enable refused and logged (R297). -/
def enableSq (r : Requester) (q : Nat) (s : State) : State :=
  let x := s.sq q
  let ctxOk := x.admin || (s.ctx x.ctx.toNat).state == .active || (s.ctx x.ctx.toNat).state == .preempted
  if ctxOk && decide (x.l.toNat ≤ 12) && ringPlaced (x.base.toNat * 4096) (64 * ringSize x.l) then
    s.setSq q { x with enable := true, state := .active, pending := false, err := .none, tail := x.head, retries := none }
  else logReg (sqOff q + 8) r (s.setSq q { x with enable := false, pending := false, state := .disabled })

/-- A CQ enabled, or the enable refused and logged (R297). -/
def enableCq (r : Requester) (q : Nat) (s : State) : State :=
  let x := s.cq q
  if decide (x.l.toNat ≤ 12) && ringPlaced (x.base.toNat * 4096) (32 * ringSize x.l) then
    s.setCq q { x with enable := true, state := .active, pending := false, err := .none, dropped := 0 }
  else logReg (cqOff q + 8) r (s.setCq q { x with enable := false, pending := false, state := .disabled })

/-- An SQ put in DRAINING (R297): pending WAITs and commands that have not started complete with ST_ABORTED and a cause. -/
def drainSq (q cause : Nat) (s : State) : State :=
  let x := s.sq q
  if x.state = .active ∨ x.state = .error then
    let s := s.setSq q { x with state := .draining, enable := false, pending := false, retries := none }
    abortWaits q cause (abortFetched q cause s)
  else if x.state = .draining then s.setSq q { x with enable := false, pending := false }
  else s

/-- A CQ put in DRAINING (R297); one that was in ERROR drops its waiting entries. -/
def drainCq (q : Nat) (s : State) : State :=
  let x := s.cq q
  if x.state = .error then
    let s := s.setCq q { x with state := .draining, enable := false, pending := false, waiting := [] }
    forEach x.waiting (dropEntry q) s
  else if x.state = .active then s.setCq q { x with state := .draining, enable := false, pending := false }
  else if x.state = .draining then s.setCq q { x with enable := false, pending := false }
  else s

/-- Whether the control complex makes an access. -/
def byZoilo : Origin → Bool
  | .zoilo _ => true
  | _ => false

/-- A write of CMD_SQq_CTL (R275, R297). -/
def sqCtlOp (o : Origin) (q : Nat) (v : W64) (s : State) : State :=
  let r := originReq o
  if !originQueue o then logReg (sqOff q + 8) r s
  else
    let x := s.sq q
    match x.state with
    | .disabled =>
      let fn := fld v 26 21
      let s := s.setSq q { x with
        admin := bit v 4, byZoilo := byZoilo o, ctx := BitVec.ofNat 6 (fld v 10 5), cq := BitVec.ofNat 10 (fld v 20 11)
        func := if fn ≤ 32 then BitVec.ofNat 6 fn else x.func }
      let s := if fn ≤ 32 then s else logReg (sqOff q + 8) r s
      if bit v 0 then enableSq r q s else s
    | .active => if bit v 0 then s else drainSq q 2 s
    | .error => if bit v 0 then s else drainSq q 2 s
    | .draining => s.setSq q { x with pending := bit v 0, enable := bit v 0, byZoilo := if bit v 0 then byZoilo o else x.byZoilo }

/-- SQ_ENABLE (R297). -/
def execSqEnable (o : Origin) (q : QId) (v : W64) (s : State) : Host.Outcome State Fault Refusal :=
  .next (whenLive (sqCtlOp o q.val v) s)

/-- A write of CMD_CQq_CTL (R275, R297). -/
def cqCtlOp (o : Origin) (q : Nat) (v : W64) (s : State) : State :=
  let r := originReq o
  if !originQueue o then logReg (cqOff q + 8) r s
  else
    let x := s.cq q
    match x.state with
    | .disabled =>
      let fn := fld v 23 18
      let s := s.setCq q { x with
        irqmode := BitVec.ofNat 2 (fld v 5 4)
        irqall := bit v 6, vector := BitVec.ofNat 10 (fld v 17 8)
        func := if fn ≤ 32 then BitVec.ofNat 6 fn else x.func }
      let s := if fn ≤ 32 then s else logReg (cqOff q + 8) r s
      if bit v 0 then enableCq r q s else s
    | .active => if bit v 0 then s else drainCq q s
    | .error => if bit v 0 then s else drainCq q s
    | .draining => s.setCq q { x with pending := bit v 0, enable := bit v 0 }

/-- CQ_ENABLE (R297). -/
def execCqEnable (o : Origin) (q : QId) (v : W64) (s : State) : Host.Outcome State Fault Refusal :=
  .next (whenLive (cqCtlOp o q.val v) s)

/-- The end of an SQ's drain (R297): every started command has completed. -/
def sqDrainEnd (q : Nat) (s : State) : State :=
  let x := s.sq q
  if x.state = .draining ∧ x.started.isEmpty ∧ x.fetched.isEmpty then
    if x.pending then enableSq .hub q s else s.setSq q { x with state := .disabled }
  else s

/-- The end of a CQ's drain (R297): its waiting entries are posted. -/
def cqDrainEnd (q : Nat) (s : State) : State :=
  let x := s.cq q
  if x.state = .draining ∧ x.waiting.isEmpty then
    if x.pending then enableCq .hub q s else s.setCq q { x with state := .disabled }
  else s

/-- QUEUE_DRAIN_END (R297). -/
def execQueueDrainEnd (cq : Bool) (q : QId) (s : State) : Host.Outcome State Fault Refusal :=
  .next (whenLive (fun s => if cq then cqDrainEnd q.val s else sqDrainEnd q.val s) s)

end Sys2Proof.Machine
end

