-- ==== Sys2Proof/Machine/Cmds.lean ====
section
/-! DEFINITION. Queue commands (R285-R288, R291-R294): NOP, FENCE, SIGNAL, WAIT, LAUNCH, the start of the hub's DMA copies,
page-table commands, queries. -/

namespace Sys2Proof.Machine

/-! ### Order and objects -/

/-- NOP (R287). -/
def execNopCmd (q : QId) (n : Nat) (s : State) : Host.Outcome State Fault Refusal :=
  .next (whenLive (onCmd q.val n 0x00 (fun _ s => completeCmd q.val n .ok 0 0 s)) s)

/-- Whether every command that a queue started before one has completed (R285). -/
def earlierDone (q n : Nat) (s : State) : Bool := (s.sq q).started.all (fun c => decide (n ≤ c.uid))

/-- FENCE (R285): completes once every earlier command has. -/
def execFenceCmd (q : QId) (n : Nat) (s : State) : Host.Outcome State Fault Refusal :=
  .next (whenLive (onCmd q.val n 0x01 (fun _ s =>
    if earlierDone q.val n s then completeCmd q.val n .ok 0 0 s else s)) s)

/-- The immediate outcome of a command's remote request; one that was sent leaves the command running. -/
def cmdSendRes (q n node : Nat) (r : SendRes) (s : State) : State :=
  match r with
  | .sent => setPhase q n .running s
  | .answered _ => completeCmd q n .ok 0 0 s
  | .refused k => completeCmd q n .windowFault (k + 4096 * node) 0 s
  | .lost => completeCmd q n .peerLost node 0 s

/-- The signal of a SIGNAL command (R257, R261, R285, R328). -/
def signalOp (q n : Nat) (c : Cmd) (s : State) : State :=
  let ref := leAt c.bytes 16 8
  let inc : W32 := BitVec.ofNat 32 (leAt c.bytes 24 4)
  match refOf ref with
  | .reserved => illegalCmd q n 0x01 s
  | .remote _ node =>
    let r := sendSignal ref inc 0 (.cmd (Fin.ofNat 1024 q) n) s
    cmdSendRes q n node r.1 r.2
  | .loc vid =>
    let r := objLookup 0 c.ctx vid .signal s
    match r.1 with
    | .ok p => completeCmd q n .ok 0 0 (postSignal p inc r.2)
    | .error o => let st := objStatus o; completeCmd q n st.1 st.2 0 r.2

/-- SIGNAL (R285): a FENCE, then a signal. -/
def execSignalCmd (q : QId) (n : Nat) (s : State) : Host.Outcome State Fault Refusal :=
  .next (whenServed (onCmd q.val n 0x02 (fun c s => if earlierDone q.val n s then signalOp q.val n c s else s)) s)

/-- The wait of a WAIT command (R257, R261, R285). -/
def waitOp (q n : Nat) (c : Cmd) (s : State) : State :=
  match refOf (leAt c.bytes 16 8) with
  | .reserved => illegalCmd q n 0x01 s
  | .remote _ _ => illegalCmd q n 0x02 s
  | .loc vid =>
    let r := objLookup 0 c.ctx vid .wait s
    match r.1 with
    | .ok p =>
      postWait ⟨p, BitVec.ofNat 32 (leAt c.bytes 24 4), .queue (Fin.ofNat 1024 q) n⟩ (setPhase q n .running r.2)
    | .error o => let st := objStatus o; completeCmd q n st.1 st.2 0 r.2

/-- WAIT (R285). -/
def execWaitCmd (q : QId) (n : Nat) (s : State) : Host.Outcome State Fault Refusal :=
  .next (whenServed (onCmd q.val n 0x03 (waitOp q.val n)) s)

/-- WAIT_TIMEOUT (R287): a pending WAIT with a TIMEOUT ends with ST_TIMEOUT. -/
def execWaitTimeout (q : QId) (n : Nat) (s : State) : Host.Outcome State Fault Refusal :=
  .next (whenLive (fun s =>
    match startedCmd s q.val n with
    | some c =>
      if c.opc = 0x03 ∧ c.phase = .running ∧ leAt c.bytes 28 4 ≠ 0 then
        completeCmd q.val n .timeout 0 0 (dropQueueWait q.val n s)
      else s
    | none => s) s)

/-! ### LAUNCH -/

/-- Dies of a tile mask that are fenced. -/
def lostTiles (m : BitVec 96) (s : State) : Nat :=
  (dieList.filter (fun d => s.fenced d && (tilesOfDie d).any (fun t => m.getLsbD t))).foldl (fun a d => a + 2 ^ d) 0

/-- How a LAUNCH is refused before its arguments are read (R288). -/
def launchRefusal (c : Cmd) (s : State) : Option (Status × Nat) :=
  let b := c.bytes
  let m : BitVec 96 := BitVec.ofNat 96 (leAt b 40 12)
  let argInl := nbit (leAt b 36 1) 6
  if m = 0 ∨ (bitsSet m).any (fun t => s.withdrawn t && !s.fenced (dieOfTile t)) then some (.illegal, 0x05)
  else if leAt b 16 8 % 8 ≠ 0 ∨ 65536 < leAt b 32 4 ∨ (argInl ∧ (c.len - 1) * 64 < leAt b 32 4) then some (.illegal, 0x02)
  else if lostTiles m s ≠ 0 then some (.dieLost, lostTiles m s)
  else none

/-- The kernel that a LAUNCH places on its tiles (R127, R288). -/
def placeKernel (q n : Nat) (c : Cmd) (args : List Byte) (s : State) : State :=
  let b := c.bytes
  let f := leAt b 36 1
  let m : BitVec 96 := BitVec.ofNat 96 (leAt b 40 12)
  let x := s.ctx c.ctx
  let k : Kernel :=
    { kid := s.kidNext, sq := Fin.ofNat 1024 q, uid := n, ctx := Fin.ofNat 64 c.ctx, gen := x.gen
      entry := BitVec.ofNat 64 (leAt b 16 8), args := args, width := 8 * 2 ^ (f % 4), nregs := 8 * (f / 4 % 8 + 1)
      nru := nbit f 5, ngroup := leAt b 38 2 + 1, tiles := m, todo := m, live := 0, abort := none, poison := false
      hostLost := false, drops := 0, reruns := 0, winFault := none, peerLost := none, remote := 0
      limit := x.limit.toNat, legacy := x.legacy, rnd := x.rnd.toNat }
  let s := { s with kernels := s.kernels ++ [k], kidNext := s.kidNext + 1 }
  forEach (bitsSet m) (fun t s => s.modTile t (fun x => { x with waiting := x.waiting ++ [k.kid] }))
    (setPhase q n .running s)

/-- LAUNCH (R288): refused, or its argument block copied and its kernel placed; a destroy of its context that came between ends it (R290). -/
def launchOp (q n : Nat) (c : Cmd) (s : State) : State :=
  if (s.ctx c.ctx).state = .draining then completeCmd q n .aborted 0x10000 0 s
  else match launchRefusal c s with
  | some (st, d) => completeCmd q n st d 0 s
  | none =>
    let len := leAt c.bytes 32 4
    if nbit (leAt c.bytes 36 1) 6 then placeKernel q n c ((c.bytes.drop 64).take len) s
    else
      let r := engineRead c.ctx (leAt c.bytes 24 8) len s
      if r.1.st.1 = .ok then placeKernel q n c (plain r.1.data) r.2 else completeCmd q n r.1.st.1 r.1.st.2 0 r.2

/-- LAUNCH (R288). -/
def execLaunch (q : QId) (n : Nat) (hw : List HostByte) (s : State) : Host.Outcome State Fault Refusal :=
  .next (whenServed (fun s => onCmd q.val n 0x10 (launchOp q.val n) (hostStores hw s)) s)

/-! ### Copies -/

/-- Whether a LENGTH of COPY and FILL is in range (R287). -/
def copyLenOk (n : Nat) : Bool := decide (1 ≤ n) && decide (n ≤ 2 ^ 40)

/-- A copy command that passes its checks runs on the DMA engines until HUB_DMA_COMPLETE. -/
def dmaStart (ok : Cmd → Option Nat) (q n : Nat) (c : Cmd) (s : State) : State :=
  match ok c with
  | some d => illegalCmd q n d s
  | none => setPhase q n .running s

/-- DETAIL of an illegal COPY, WRITE_INLINE, FILL, REDUCE_COPY (R287). -/
def copyIllegal (c : Cmd) : Option Nat := if copyLenOk (leAt c.bytes 32 8) then none else some 0x02
def inlineIllegal (c : Cmd) : Option Nat :=
  if 1 ≤ leAt c.bytes 24 4 ∧ leAt c.bytes 24 4 ≤ (c.len - 1) * 64 then none else some 0x02
def reduceIllegal (c : Cmd) : Option Nat :=
  let f := leAt c.bytes 40 1
  if (redOpOf (f % 4)).isNone || (redFmtOf (f / 4 % 8)).isNone then some 0x01
  else if leAt c.bytes 24 8 % 256 ≠ 0 ∨ leAt c.bytes 32 8 % 256 ≠ 0 ∨ (redOf (f % 4) (f / 4 % 8)).isNone then some 0x02
  else none

/-- COPY (R287). -/
def execCopyCmd (q : QId) (n : Nat) (s : State) : Host.Outcome State Fault Refusal :=
  .next (whenLive (onCmd q.val n 0x20 (dmaStart copyIllegal q.val n)) s)

/-- WRITE_INLINE (R287). -/
def execWriteInline (q : QId) (n : Nat) (s : State) : Host.Outcome State Fault Refusal :=
  .next (whenLive (onCmd q.val n 0x21 (dmaStart inlineIllegal q.val n)) s)

/-- FILL (R287). -/
def execFillCmd (q : QId) (n : Nat) (s : State) : Host.Outcome State Fault Refusal :=
  .next (whenLive (onCmd q.val n 0x22 (dmaStart copyIllegal q.val n)) s)

/-- REDUCE_COPY (R287). -/
def execReduceCopy (q : QId) (n : Nat) (s : State) : Host.Outcome State Fault Refusal :=
  .next (whenLive (onCmd q.val n 0x23 (dmaStart reduceIllegal q.val n)) s)

/-! ### Page tables -/

/-- What a probe of the device tables finds. -/
inductive Probe where
  | missing (level : Nat)
  | leaf (level addr e : Nat)
  | table (level addr : Nat)
  | fail (level : Nat) (st : Status × Nat)
deriving DecidableEq, Repr

/-- The tables followed for an address from a level down to `stop`, whose entry is answered as it stands (R292). -/
def probe (va stop : Nat) : Nat → Nat → Nat → State → Probe × State
  | 0, level, _, s => (.fail level (.xlateFault, xreasonCode .malformed), s)
  | f + 1, level, t, s =>
    let addr := t + 8 * devIndex va level
    let r := walkRead .hub addr s
    match r.1 with
    | .error (.lost d) => (.fail level (.dieLost, d.toNat), r.2)
    | .error (.fault w) => (.fail level (.xlateFault, xreasonCode w), r.2)
    | .error (.leaf _ _ _ _ _ _) => (.fail level (.xlateFault, xreasonCode .malformed), r.2)
    | .ok e =>
      if !nbit e 0 then (.missing level, r.2)
      else if level = stop then (if nbit e 1 then .leaf level addr e else .table level addr, r.2)
      else if !devEntryOk e level then (.fail level (.xlateFault, xreasonCode .malformed), r.2)
      else if nbit e 1 then (.leaf level addr e, r.2)
      else probe va stop f (level - 1) (nfld e 47 8 * 256) r.2

/-- The tables of a context probed. -/
def probeCtx (ctx va stop : Nat) (s : State) : Probe × State := probe va stop 4 3 ((s.ctx ctx).root.toNat * 4096) s

/-- The address of the entry for a new leaf at a level, or why it may not be written (R292). -/
def leafSlot (ctx va level : Nat) (s : State) : Except (Status × Nat) Nat × State :=
  let p := probeCtx ctx va level s
  match p.1 with
  | .missing l =>
    if l = level then
      -- the empty entry itself: found again through its table
      let up := probeCtx ctx va (level + 1) p.2
      match up.1 with
      | .table _ a =>
        let r := walkRead .hub a up.2
        match r.1 with
        | .ok e => (.ok (nfld e 47 8 * 256 + 8 * devIndex va level), r.2)
        | .error _ => (.error (.xlateFault, xreasonCode .malformed), r.2)
      | _ => (.error (.xlateFault, xreasonCode .notValid), up.2)
    else (.error (.xlateFault, xreasonCode .notValid), p.2)
  | .leaf l a _ => if l = level then (.ok a, p.2) else (.error (.illegal, 0x02), p.2)
  | .table _ _ => (.error (.illegal, 0x02), p.2)
  | .fail _ st => (.error st, p.2)

/-- A list with one more in front, or the worse of the failures of the two (R296). -/
def consOr {α : Type} (a : Except (Status × Nat) α) (l : Except (Status × Nat) (List α)) : Except (Status × Nat) (List α) :=
  match a, l with
  | .ok a, .ok l => .ok (a :: l)
  | .ok _, .error e => .error e
  | .error e, .ok _ => .error e
  | .error e, .error e' => .error (worse e e')

/-- The entries of every leaf of a range, `n` leaves of `size` from `va` on; the whole range is checked (R292). -/
def leafSlots (ctx level size : Nat) : Nat → Nat → State → Except (Status × Nat) (List Nat) × State
  | 0, _, s => (.ok [], s)
  | n + 1, va, s =>
    let r := leafSlot ctx va level s
    let t := leafSlots ctx level size n (va + size) r.2
    (consOr r.1 t.1, t.2)

/-- Translations of a range of a context leave the TLBs (R231). -/
def purgeRange (ctx va len : Nat) (s : State) : State :=
  tlbPurge (fun e => e.ctx.val == ctx && overlap e.vbase e.size va len) s

/-- An entry written on the driver's behalf (R227). -/
def writeLeaf (a v : Nat) (s : State) : State := (memWrite (hubPort 0) a (clean (toBytes v 8)) s).2

/-- Object-table entries leave the caches (R260). -/
def objPurge (p : ObjEntry → Bool) (s : State) : State :=
  let keep (l : List ObjEntry) : List ObjEntry := l.filter (fun e => !p e)
  { s with
    dies := Sparse.mapVals {} s.dies (fun d => { d with objs := keep d.objs })
    hub := { s.hub with objs := keep s.hub.objs } }

/-- The tiles that run a kernel of a context that a test names. -/
def tilesOfCtx (p : Nat → Bool) (s : State) : List Nat :=
  (s.tiles.map (·.1)).filter (fun t => match s.runKernel t with | some k => p k.ctx.val | none => false)

/-- Whether accesses of such contexts that were translated earlier are still under way (R231): loads that wait for their lines, and
received writes held at their homes. -/
def accessesOut (p : Nat → Bool) (s : State) : Bool :=
  (tilesOfCtx p s).any (fun t => !(s.tile t).fills.isEmpty) || s.eng.heldRx.any (fun h => p h.win.ctx.toNat)

/-- Their buffered stores performed (R231). -/
def performStores (p : Nat → Bool) (s : State) : State :=
  forEach (tilesOfCtx p s) (fun t s => let w := drainAll t s; abortIfLost t w.1 0 w.2) s

/-- The end of a command that changes leaves of a context and invalidates them as TLB_INVALIDATE does (R227, R231): while accesses
translated earlier are under way it waits as it stood, else buffered stores are performed, the leaves written and the range purged. -/
def changeLeaves (q n ctx va len : Nat) (w : State → State) (s0 s : State) : State :=
  if accessesOut (· == ctx) s then s0
  else completeCmd q n .ok 0 0 (purgeRange ctx va len (w (performStores (· == ctx) s)))

/-- How a MAP_RANGE is refused before the tables are read (R226, R292). -/
def mapRefusal (c : Cmd) (s : State) : Option (Status × Nat) :=
  let b := c.bytes
  let va := leAt b 16 8
  let pa := leAt b 24 8
  let len := leAt b 32 8
  let f := leAt b 40 1
  let size := devLeafSize (f % 4)
  if f % 4 = 3 then some (.illegal, 0x01)
  else if (s.ctx c.ctx).safelight ∨ len = 0 ∨ va % size ≠ 0 ∨ pa % size ≠ 0 ∨ len % size ≠ 0 ∨ 2 ^ 52 < va + len ∨
      2 ^ 48 < pa + len then some (.illegal, 0x02)
  else none

/-- The status of a MAP_RANGE of coherent host memory without FEAT_CXL_CACHE (R226). -/
def mapFeature (c : Cmd) (s : State) : Status × Nat :=
  if overlap (leAt c.bytes 24 8) (leAt c.bytes 32 8) 0x100000000000 0x100000000000 && nbit (leAt c.bytes 40 1) 5 && !s.cxlAccepted then (.feature, 6)
  else (.ok, 0)

/-- MAP_RANGE (R292). -/
def mapOp (q n : Nat) (c : Cmd) (s : State) : State :=
  match mapRefusal c s with
  | some (st, d) => completeCmd q n st d 0 s
  | none =>
    let b := c.bytes
    let f := leAt b 40 1
    let level := f % 4
    let size := devLeafSize level
    let va := leAt b 16 8
    let len := leAt b 32 8
    let r := leafSlots c.ctx level size (len / size) va s
    let st := worse (mapFeature c s) (match r.1 with | .error e => e | .ok _ => (.ok, 0))
    match r.1, st.1 with
    | .ok slots, .ok =>
      let attrs := 3 + 4 * nfld f 5 2 + 2 ^ 56 * leAt b 41 1
      changeLeaves q n c.ctx va len (fun s => forEach ((List.range slots.length).zip slots) (fun e s =>
        writeLeaf e.2 (leAt b 24 8 + e.1 * size + attrs) s) s) s r.2
    | _, _ => completeCmd q n st.1 st.2 0 r.2

/-- MAP_RANGE (R292). -/
def execMapRange (q : QId) (n : Nat) (s : State) : Host.Outcome State Fault Refusal :=
  .next (whenServed (onCmd q.val n 0x40 (mapOp q.val n)) s)

/-- Bytes that an entry of a level covers. -/
def levelSpan (level : Nat) : Nat := if level = 3 then 2 ^ 39 else devLeafSize level

/-- The valid leaves of [lo, hi) from an address on, or why the range may not be unmapped (R292). -/
def validLeaves (ctx lo hi : Nat) : Nat → Nat → State → Except (Status × Nat) (List (Nat × Nat)) × State
  | 0, _, s => (.ok [], s)
  | f + 1, va, s =>
    if hi ≤ va then (.ok [], s)
    else
      let p := probeCtx ctx va 0 s
      let rest (level : Nat) : Except (Status × Nat) (List (Nat × Nat)) × State :=
        validLeaves ctx lo hi f ((va / levelSpan level + 1) * levelSpan level) p.2
      match p.1 with
      | .missing l => rest l
      | .table l _ => let t := rest l; (consOr (.error (.xlateFault, xreasonCode .malformed)) t.1, t.2)
      | .fail l st => let t := rest l; (consOr (.error st) t.1, t.2)
      | .leaf l a e =>
        let base := va / levelSpan l * levelSpan l
        let one : Except (Status × Nat) (Nat × Nat) :=
          if !devEntryOk e l then .error (.xlateFault, xreasonCode .malformed)
          else if base < lo ∨ hi < base + levelSpan l then .error (.illegal, 0x02)
          else .ok (a, e)
        let t := rest l
        (consOr one t.1, t.2)

/-- UNMAP_RANGE (R292); a range past VA 2^52 ends with ST_XLATE_FAULT and reason RANGE (LOG 44). -/
def unmapOp (q n : Nat) (c : Cmd) (s : State) : State :=
  let va := leAt c.bytes 16 8
  let len := leAt c.bytes 32 8
  if (s.ctx c.ctx).safelight ∨ len = 0 then illegalCmd q n 0x02 s
  else if 2 ^ 52 < va + len then completeCmd q n .xlateFault (xreasonCode .range) 0 s
  else
    let r := validLeaves c.ctx va (va + len) (len / 65536 + 2) va s
    match r.1 with
    | .error (st, d) => completeCmd q n st d 0 r.2
    | .ok l =>
      changeLeaves q n c.ctx va len (forEach l (fun e s => writeLeaf e.1 (e.2 - 1) s)) s r.2

/-- UNMAP_RANGE (R292). -/
def execUnmapRange (q : QId) (n : Nat) (s : State) : Host.Outcome State Fault Refusal :=
  .next (whenServed (onCmd q.val n 0x41 (unmapOp q.val n)) s)

/-- Signals under way performed at their homes (R260). -/
def performSignals (s : State) : State :=
  forEach s.sync.sigs applySignal { s with sync := { s.sync with sigs := [] } }

/-- TLB_INVALIDATE by its scope (R293): it completes once every access, or every signal, translated through an old entry has been
performed (R231, R260). -/
def tlbInvOp (q n : Nat) (c : Cmd) (s : State) : State :=
  let a := leAt c.bytes 24 8
  let len := leAt c.bytes 32 8
  let mine (x : Nat) : Bool := c.scope == 3 || x == c.ctx
  if c.scope = 2 then
    if s.sync.sigs.any (fun g => g.held s) then s
    else completeCmd q n .ok 0 0
      (performSignals (objPurge (fun e => e.ctx.val == c.ctx && decide (a ≤ e.vid) && decide (e.vid < a + len)) s))
  else if accessesOut mine s then s
  else
    let s := performStores mine s
    completeCmd q n .ok 0 0 (match c.scope with
      | 0 => purgeRange c.ctx a len s
      | 1 => tlbPurge (fun e => e.ctx.val == c.ctx) s
      | _ => tlbPurge (fun _ => true) s)

/-- TLB_INVALIDATE (R293). -/
def execTlbInvalidate (q : QId) (n : Nat) (s : State) : Host.Outcome State Fault Refusal :=
  .next (whenServed (onCmd q.val n 0x42 (tlbInvOp q.val n)) s)

/-! ### Queries and features -/

/-- DEV_FEATURES (R399, R304): bit 6 only while the link is in CXL mode. -/
def devFeatures (s : State) : BitVec 8 := if s.pcie.cxl && s.pcie.linkUp then s.glb.devFeat else setBit s.glb.devFeat 6 false

/-- Whether it is the turn of a started command that reads or writes DRV_ACCEPT: such commands act in the order of their start, across all
queues (R405); one that R298 latched has left the order (LOG 164). -/
def drvTurn (q n : Nat) (s : State) : Bool :=
  (s.glb.drvQ.find? (fun e => match startedCmd s e.1 e.2 with | some c => c.phase == .started | none => false)).all
    (fun e => e == (q, n))

/-- A started command that reads or writes DRV_ACCEPT, in its turn. -/
def onDrvCmd (q n opc : Nat) (f : Cmd → State → State) (s : State) : State :=
  onCmd q n opc (fun c s => if !readsDrv c || drvTurn q n s then f c s else s) s

/-- A QUERY item (R294). -/
def queryItem (item ctx : Nat) (s : State) : Option Nat :=
  match item with
  | 0 => some (devFeatures s).toNat
  | 1 => some 0
  | 2 => some s.glb.drvAccept.toNat
  | 3 => some 0
  | 4 => some s.hub.tel.toNat
  | 5 => some (s.ctx ctx).fault.toNat
  | 6 => some (s.ctx ctx).objFault.toNat
  | _ => none

/-- QUERY (R294). -/
def execQuery (q : QId) (n : Nat) (s : State) : Host.Outcome State Fault Refusal :=
  .next (whenLive (onDrvCmd q.val n 0x50 (fun c s =>
    match queryItem (leAt c.bytes 16 1) c.ctx s with
    | some v => completeCmd q.val n .ok 0 v s
    | none => illegalCmd q.val n 0x01 s)) s)

/-- The lowest set bit of a number below 128. -/
def lowestBit (x : Nat) : Nat := ((List.range 128).find? (fun i => nbit x i)).getD 0

/-- FEATURE_NEGOTIATE (R291). -/
def negotiateOp (q n : Nat) (c : Cmd) (s : State) : State :=
  if s.glb.locked then completeCmd q n .feature 0x100 s.glb.drvAccept.toNat s
  else
    let req := leAt c.bytes 16 16
    let got := req &&& (devFeatures s).toNat
    let s := { s with glb := { s.glb with drvAccept := BitVec.ofNat 8 got } }
    if got = req then completeCmd q n .ok 0 got s
    else completeCmd q n .feature (lowestBit (req ^^^ got)) got s

/-- FEATURE_NEGOTIATE (R291). -/
def execFeatureNegotiate (q : QId) (n : Nat) (s : State) : Host.Outcome State Fault Refusal :=
  .next (whenLive (onDrvCmd q.val n 0x51 (negotiateOp q.val n)) s)

end Sys2Proof.Machine
end

