-- ==== Sys2Proof/Machine/Contexts.lean ====
section
/-! DEFINITION. Contexts (R289, R290, R298-R302, R378) and functions (R298, R377): create, destroy, preempt, resume, reset, and
the wipe of a function-level reset. -/

namespace Sys2Proof.Machine

/-! ### What a context's tables map -/

/-- What a walk over a whole table tree finds: tables (address, bytes) and leaves (address, bytes, writable). -/
structure Tree where
  tables : List (Nat × Nat)
  leaves : List (Nat × Nat × Bool)
deriving DecidableEq, Repr

/-- Both. -/
def Tree.and (a b : Tree) : Tree := ⟨a.tables ++ b.tables, a.leaves ++ b.leaves⟩

/-- An entry of a table as it stands in memory and in the cores' caches, for Zoilo's own reading (R382). -/
def peekEntry (s : State) (pa : Nat) : Nat :=
  match cachedData s (pa / 64) with
  | some c => leAt c.data (pa % 64) 8
  | none => ofBytes (Mem.bytes s.pool.hbm pa 8)

/-- The tree under a device table at a level. -/
def devTree (s : State) : Nat → Nat → Tree
  | 0, t =>
    (List.range 32).foldl (fun acc i =>
      let e := peekEntry s (t + 8 * i)
      if nbit e 0 && devEntryOk e 0 then acc.and ⟨[], [(nfld e 47 8 * 256, 65536, nbit e 3)]⟩ else acc) ⟨[(t, 256)], []⟩
  | level + 1, t =>
    let n := if level + 1 = 3 then 8192 else 512
    (List.range n).foldl (fun acc i =>
      let e := peekEntry s (t + 8 * i)
      if nbit e 0 && devEntryOk e (level + 1) then
        if nbit e 1 then acc.and ⟨[], [(nfld e 47 8 * 256, devLeafSize (level + 1), nbit e 3)]⟩
        else acc.and (devTree s level (nfld e 47 8 * 256))
      else acc) ⟨[(t, 8 * n)], []⟩

/-- A valid leaf of the safelight tables at a level (R233): its address, its bytes and its W. -/
def slLeaf (e level : Nat) : Option (Nat × Nat × Bool) :=
  let ppn := nfld e 53 10
  let napot := nbit e 63
  let size := if napot then 65536 else slLeafSize level
  let base := if napot then ppn / 16 * 65536 else ppn * 4096
  if nfld e 60 54 ≠ 0 ∨ (nbit e 2 ∧ ¬nbit e 1) ∨ nfld ppn 43 36 ≠ 0 ∨ (napot ∧ (level ≠ 0 ∨ nfld ppn 3 0 ≠ 8)) ∨ base % size ≠ 0 then none
  else some (base, size, nbit e 2)

/-- Whether a safelight entry above level 0 names a next table (R233). -/
def slNextOk (e : Nat) : Bool :=
  nfld e 60 54 == 0 && !nbit e 2 && !nbit e 63 && !nbit e 4 && !nbit e 6 && !nbit e 7 && hbmVisible (nfld e 53 10 * 4096)

/-- The tree under a safelight table at a level. -/
def slTree (s : State) : Nat → Nat → Tree
  | 0, t =>
    (List.range 512).foldl (fun acc i =>
      let e := peekEntry s (t + 8 * i)
      if nbit e 0 && (nbit e 1 || nbit e 3) then acc.and ⟨[], (slLeaf e 0).toList⟩ else acc) ⟨[(t, 4096)], []⟩
  | level + 1, t =>
    (List.range 512).foldl (fun acc i =>
      let e := peekEntry s (t + 8 * i)
      if !nbit e 0 then acc
      else if nbit e 1 || nbit e 3 then acc.and ⟨[], (slLeaf e (level + 1)).toList⟩
      else if slNextOk e then acc.and (slTree s level (nfld e 53 10 * 4096)) else acc) ⟨[(t, 4096)], []⟩

/-- The tables and leaves of a context. -/
def ctxTree (s : State) (c : Nat) : Tree :=
  let x := s.ctx c
  if !x.rootV then ⟨[], []⟩
  else if x.safelight then slTree s 3 (x.root.toNat * 4096)
  else devTree s 3 (x.root.toNat * 4096)

/-- The physical objects that the valid entries of a context's object table name. -/
def ctxObjects (s : State) (c : Nat) : List Nat :=
  let x := s.ctx c
  if !x.objV then []
  else
    ((List.range (2 ^ x.objSize.toNat)).map (fun v => peekEntry s (x.objBase.toNat * 4096 + 4 * v) % 2 ^ 32)).filterMap
      (fun e => if nbit e 0 then some (nfld e 21 8) else none)

/-! ### Creating -/

/-- How a CONTEXT_CREATE is refused (R221, R289). -/
def createRefusal (b : List Byte) (s : State) : Option (Status × Nat) :=
  let f := leAt b 16 1
  let safelight := nbit f 0
  let fn := leAt b 17 1
  let osz := leAt b 20 1
  let root := leAt b 24 8
  let obj := leAt b 32 8
  let vf := decide (1 ≤ fn) && !(s.pcie.vfEnable && decide (fn ≤ s.pcie.numVfs))
  let vecs := if fn = 0 then 1024 else 30
  let bad := !hbmVisibleRange root (if safelight then 4096 else 65536) ||
    root % (if safelight then 4096 else 65536) != 0 ||
    (decide (1 ≤ osz) && decide (osz ≤ 5)) || decide (20 < osz) ||
    (osz != 0 && (obj % 4096 != 0 || !hbmVisibleRange obj (4 * 2 ^ osz))) ||
    decide (32 < fn) || vf || decide (vecs ≤ leAt b 48 2) || decide (vecs ≤ leAt b 50 2)
  if nfld f 2 1 = 3 then some (.illegal, 0x01)
  else if bad then some (.illegal, 0x02)
  else if safelight && !s.glb.drvAccept.getLsbD 5 then some (.feature, 5)
  else if nbit f 3 && !s.glb.drvAccept.getLsbD 2 then some (.feature, 2)
  else none

/-- The context that a CONTEXT_CREATE sets up (R289). -/
def createCtx (b : List Byte) (gen : Nat) (epoch : W32) : Ctx :=
  let f := leAt b 16 1
  let osz := leAt b 20 1
  { state := .active, gen := gen, rnd := BitVec.ofNat 2 (nfld f 2 1), legacy := nbit f 3, func := BitVec.ofNat 6 (leAt b 17 1)
    satvec := BitVec.ofNat 16 (leAt b 48 2), errvec := BitVec.ofNat 16 (leAt b 50 2), seed := BitVec.ofNat 64 (leAt b 40 8)
    epoch := epoch, rootV := true, safelight := nbit f 0, root := BitVec.ofNat 36 (leAt b 24 8 / 4096)
    objV := osz != 0, objSize := BitVec.ofNat 5 osz, objBase := BitVec.ofNat 36 (if osz = 0 then 0 else leAt b 32 8 / 4096)
    limit := if nbit f 4 then BitVec.ofNat 15 (leAt b 18 2) else 16, satLegacy := nbit f 3 }

/-- Whether the control complex may create a context now (R400): context 63, in the MANUFACTURE or RETURNED state. -/
def zoiloMay (ctx : Nat) (s : State) : Bool := ctx == 63 && (s.fuses.lcState == 1 || s.fuses.lcState == 4)

/-- How the creation of a context from a queue is refused: Zoilo's where R400 does not let it use the context (LOG 165), else by R289. -/
def createStop (q : Nat) (c : Cmd) (s : State) : Option (Status × Nat) :=
  if (s.sq q).byZoilo && !zoiloMay c.ctx s then some (.illegal, 0x04) else createRefusal c.bytes s

/-- A context set up, its command complete, DRV_ACCEPT locked unless Zoilo creates it (R400); its grain generators start anew on every tile
(R53, R289). -/
def applyCreate (q n : Nat) (c : Cmd) (s : State) : State :=
  match createStop q c s with
  | some (st, d) => completeCmd q n st d 0 s
  | none =>
    let k := s.ctx c.ctx
    let x := createCtx c.bytes (k.gen + 1) s.glb.epoch
    let s := s.setCtx c.ctx { x with arms := k.arms }
    let s := { s with
      tiles := Sparse.mapVals {} s.tiles (fun t => { t with grain := Sparse.drop t.grain c.ctx })
      glb := { s.glb with locked := s.glb.locked || !(s.sq q).byZoilo } }
    completeCmd q n .ok 0 0 s

/-- CONTEXT_CREATE (R289, R298): latched behind a drain. -/
def execContextCreate (q : QId) (n : Nat) (s : State) : Host.Outcome State Fault Refusal :=
  .next (whenLive (onDrvCmd q.val n 0x70 (fun c s =>
    match (s.ctx c.ctx).state with
    | .free => applyCreate q.val n c s
    | .draining =>
      if (s.ctx c.ctx).pending.isNone then
        (setPhase q.val n .running s).modCtx c.ctx (fun x => { x with pending := some (q, n) })
      else illegalCmd q.val n 0x04 s
    | _ => illegalCmd q.val n 0x04 s)) s)

/-! ### Destroying -/

/-- The context queues bound to a context. -/
def boundSqs (s : State) (c : Nat) : List Nat :=
  (s.sqs.filter (fun e => !e.2.admin && e.2.ctx.toNat == c)).map (·.1)

/-- A command of a context: one of its queues', or one of an admin queue that acts in it. -/
def cmdOfCtx (x : Sq) (c : Nat) (y : Cmd) : Bool :=
  if x.admin then y.ctx == c && !anyCtxState y else x.ctx.toNat == c

/-- A context's armed waits discarded (R268): ENABLE clears, and no other field of a slot changes (R375). -/
def dropCtxArms (c : Nat) (s : State) : State :=
  let keep (w : Wait) : Bool := match w.who with
    | .arm c' _ => c'.val != c
    | _ => true
  let s := keepWaits keep s
  s.modCtx c (fun x => { x with arms := Sparse.mapVals {} x.arms (fun a => { a with enable := false }) })

/-- The pending WAIT commands of a context complete with ST_ABORTED and a cause (R290, R378). -/
def abortCtxWaits (c cause : Nat) (s : State) : State :=
  forEach s.sqs (fun e s =>
    forEach (e.2.started.filter (fun y => y.opc == 0x03 && cmdOfCtx e.2 c y))
      (fun y s => completeCmd e.1 y.uid .aborted (cause * 65536) 0 (dropQueueWait e.1 y.uid s)) s) s

/-- Every kernel of a context aborted (R140). -/
def abortCtxKernels (c : Nat) (st : Status) (detail : Nat) (s : State) : State :=
  forEach (s.kernels.filter (fun k => k.ctx.val == c && k.abort.isNone)) (fun k s => abortKernel k.kid st detail s) s

/-- Steps 1 to 4 of R290; the context is DRAINING. -/
def startDestroy (c : Nat) (who : Option (QId × Nat)) (wipe : Bool) (s : State) : State :=
  let s := s.modCtx c (fun x => { x with state := .draining, destroy := who, wipe := wipe })
  let s := forEach (boundSqs s c) (fun q s => drainSq q 1 s) s
  let s := abortCtxKernels c .aborted 0x10000 s
  let s := dropCtxArms c (abortCtxWaits c 1 s)
  { s with windows := Sparse.mapVals {} s.windows (fun w => if w.ctx.toNat = c then w.disable else w) }

/-- A started command on a context, refused where the context's state has changed so that its opcode does not accept it (R286). -/
def onCtxCmd (q n opc : Nat) (f : Cmd → State → State) (s : State) : State :=
  onCmd q n opc (fun c s => if ctxStateOk c (s.ctx c.ctx) then f c s else illegalCmd q n 0x04 s) s

/-- CONTEXT_DESTROY (R290). -/
def execContextDestroy (q : QId) (n : Nat) (s : State) : Host.Outcome State Fault Refusal :=
  .next (whenLive (onCtxCmd q.val n 0x71 (fun c s => startDestroy c.ctx (some (q, n)) false (setPhase q.val n .running s))) s)

/-- Whether every command and kernel of a context has completed, but for the destroy itself and a latched create. -/
def ctxIdle (s : State) (c : Nat) : Bool :=
  let x := s.ctx c
  let mine (q uid : Nat) : Bool :=
    x.destroy == some (Fin.ofNat 1024 q, uid) || x.pending == some (Fin.ofNat 1024 q, uid)
  s.kernels.all (fun k => k.ctx.val != c) &&
    s.sqs.all (fun e => e.2.started.all (fun y => !cmdOfCtx e.2 c y || mine e.1 y.uid))

/-! ### The wipe of a function-level reset -/

/-- Bytes that a wipe writes become known again where a generator or a repair had destroyed them. -/
def freshen (ls : List (Nat × Nat)) (s : State) : State :=
  if s.pool.ruins.isEmpty then s
  else { s with pool := { s.pool with fresh := ls.foldl (fun f l => KeySet.addRange f l.1 l.2) s.pool.fresh } }

/-- Copies of lines in the server cores' caches dropped where a test on their address says so. -/
def dropLines (hit : Nat → Bool) (s : State) : State :=
  { s with cores := { s.cores with
      l2 := Sparse.keep s.cores.l2 (fun k => !hit (k / 48 * 64)), l3 := Sparse.keep s.cores.l3 (fun k => !hit (k * 64)) } }

/-- HBM zero-filled where a test says so, unless its home is lost (R377, R387); no cache keeps an older copy. -/
def zeroHbm (p : Nat → Bool) (s : State) : State :=
  let hit (pa : Nat) : Bool := p pa && !s.fenced (dieOfStack (s.home pa).1)
  dropLines hit { s with pool := { s.pool with
      hbm := Sparse.keep s.pool.hbm (fun pa => !hit pa)
      poison := Sparse.keep s.pool.poison (fun b => !hit (32 * b)) } }

/-- The scratchpads of tiles whose last kernel belonged to a context cleared (R377, R378). -/
def clearCtxPads (c : Nat) (s : State) : State :=
  let gen := (s.ctx c).gen
  { s with tiles := Sparse.mapVals {} s.tiles (fun t => if t.lastCtx = some (64 * gen + c) then t.spadClear else t) }

/-- The wipe of a destroyed context (R377). -/
def wipeCtx (c : Nat) (s : State) : State :=
  let t := ctxTree s c
  let objs := ctxObjects s c
  let ws := (t.leaves.filter (fun l => l.2.2 && hbmVisible l.1)).map (fun l => (l.1, l.2.1))
  let s := freshen ws (zeroHbm (fun pa => hbmVisible pa && ws.any (fun l => decide (l.1 ≤ pa) && decide (pa < l.1 + l.2))) s)
  let s := clearCtxPads c s
  forEach objs (fun p s => if s.fenced (dieOfObj p) then s else setObj p 0 s) s

/-- A context's translations and object entries leave the caches. -/
def purgeCtx (c : Nat) (s : State) : State :=
  objPurge (fun e => e.ctx.val == c) (tlbPurge (fun e => e.ctx.val == c) s)

/-- CONTEXT_DRAIN_END (R290, R298): the context is FREE, its destroy completes, a latched create takes effect. -/
def ctxDrainEnd (c : Nat) (s : State) : State :=
  let x := s.ctx c
  if x.state = .draining ∧ ctxIdle s c then
    let s := dropCtxArms c s
    let s := purgeCtx c (if x.wipe then wipeCtx c s else s)
    let s := s.modCtx c (fun x => { x with
      state := .free, pending := none, destroy := none, wipe := false, rootV := false, safelight := false, root := 0
      objV := false, objSize := 0, objBase := 0, preMask := 0, preempt := none, resetWaits := false })
    let s := { s with
      glb := { s.glb with exposed := setBit s.glb.exposed c false }
      dies := Sparse.mapVals {} s.dies (fun d => { d with exposeFound := setBit d.exposeFound c false }) }
    let s := match x.destroy with
      | some (q, n) => completeCmd q.val n .ok 0 0 s
      | none => s
    match x.pending with
    | some (q, n) =>
      match startedCmd s q.val n with
      | some cmd => applyCreate q.val n cmd s
      | none => s
    | none => s
  else s

/-- CONTEXT_DRAIN_END (R298). -/
def execContextDrainEnd (c : CtxId) (s : State) : Host.Outcome State Fault Refusal :=
  .next (whenLive (ctxDrainEnd c.val) s)

/-! ### Exposure -/

/-- Bytes of a save record (R299). -/
def recBytes : Nat := 0x810000

/-- Whether any byte of a range of physical addresses is homed on a compute die (R197, R382): HBM by its stripes, of which any
twelve in a row within a region show every home, scratchpads by their tiles. -/
def touchesDie (d pa n : Nat) (s : State) : Bool :=
  let hbm := (List.range 384).any (fun r =>
    let lo := max pa (r * 2 ^ 30)
    let hi := min (pa + n) ((r + 1) * 2 ^ 30)
    decide (lo < hi) &&
      (List.range (min 12 ((hi - 1) / 2048 - lo / 2048 + 1))).any (fun i =>
        dieOfStack (s.home ((lo / 2048 + i) * 2048)).1 == d))
  let spad := (tilesOfDie d).any (fun t => overlap pa n (0x200000000000 + 0x800000 * t) 0x800000)
  hbm || spad

/-- Whether a ring of one of a context's queues is homed on a die (R382): every context queue bound to it, whatever its state, and
the CQ that it names. -/
def ringsTouch (c d : Nat) (s : State) : Bool :=
  (List.range 1024).any (fun q =>
    let x := s.sq q
    !x.admin && x.ctx.toNat == c &&
      (touchesDie d (x.base.toNat * 4096) (64 * ringSize x.l) s ||
        (let y := s.cq x.cq.toNat
         touchesDie d (y.base.toNat * 4096) (32 * ringSize y.l) s)))

/-- The tiles of a die as a mask. -/
def dieTiles (d : Nat) : BitVec 96 := (tilesOfDie d).foldl (fun m t => setBit m t true) 0

/-- Whether a context is exposed to a die (R382). -/
def exposedTo (c d : Nat) (s : State) : Bool :=
  let x := s.ctx c
  let t := ctxTree s c
  s.kernels.any (fun k => k.ctx.val == c && (k.live &&& dieTiles d) != 0) ||
    t.leaves.any (fun l => touchesDie d l.1 l.2.1 s) ||
    t.tables.any (fun l => touchesDie d l.1 l.2 s) ||
    (x.objV && touchesDie d (x.objBase.toNat * 4096) (4 * 2 ^ x.objSize.toNat) s) ||
    (ctxObjects s c).any (fun p => dieOfObj p == d) ||
    ringsTouch c d s ||
    (x.preMask != 0 && touchesDie d x.preSave (recBytes * popCount x.preMask) s)

/-! ### Context reset -/

/-- The end of a context reset, once its kernels have stopped (R375, R378): its caches, scratchpads and fault registers, and its
exposure to each fence that met it determined again, which can only end it (R383). -/
def ctxResetEnd (c : Nat) (s : State) : State :=
  let s := clearCtxPads c (purgeCtx c s)
  let s := dropHalves (fun k => k == 0x600008 + 16 * c || k == 0x500008 + 16 * c)
    (s.modCtx c (fun x => { x with fault := 0, objFault := 0, resetWaits := false }))
  let still (d : Nat) : Bool := s.fenced d && exposedTo c d s
  let dies := s.dies
  let s := forEach dies (fun e s =>
    if e.2.exposeFound.getLsbD c && !still e.1 then
      s.modDie e.1 (fun x => { x with exposeFound := setBit x.exposeFound c false }) else s) s
  { s with glb := { s.glb with
      ctxBusy := none
      exposed := setBit s.glb.exposed c
        (s.glb.exposed.getLsbD c && dieList.any (fun d => (s.die d).exposeFound.getLsbD c)) } }

/-- A context reset (R378): kernels and pending WAITs end, waits and arm slots are discarded; the rest follows when its kernels
have stopped. -/
def ctxResetNow (c : Nat) (s : State) : State :=
  let s := abortCtxKernels c .aborted 0x30000 s
  let s := dropCtxArms c (abortCtxWaits c 3 s)
  s.modCtx c (fun x => { x with resetWaits := false })

/-- The context reset under way ends where its kernels have stopped. -/
def settleCtxReset (s : State) : State :=
  match s.glb.ctxBusy with
  | some c => if !(s.ctx c).resetWaits && s.kernels.all (fun k => k.ctx.val != c || k.live == 0) then ctxResetEnd c s else s
  | none => s

/-! ### Preemption -/

/-- Whether a save area suits a mask (R299). -/
def saveAreaOk (pa : Nat) (m : BitVec 96) : Bool := pa % 65536 == 0 && hbmVisibleRange pa (recBytes * popCount m)

/-- The port of a save's or restore's accesses. -/
def savePort (s : State) (c : Nat) : Port := ⟨.hub, (s.ctx c).func.toNat, .streaming, true⟩

/-- The head of a record: grain state and written map, as the model lays them out (LOG 21). -/
def recHead (draws : Nat) (map : BitVec 128) : List Byte := toBytes draws 16 ++ toBytes map.toNat 16

/-- The record of a tile written, and its scratchpad cleared (R299, step 4); of a tile that is lost, poison (R380). -/
def saveTile (c t pa : Nat) (s : State) : Met × State :=
  let x := s.tile t
  let p := savePort s c
  if s.fenced (dieOfTile t) then
    let w := memWrite p pa (poisoned 65536) s
    (w.1.and { dies := dieMask (dieOfTile t) }, w.2)
  else
    let w := memWrite p pa (clean (recHead (Sparse.read 0 x.grain c) x.written)) s
    let r := (bitsSet x.written).foldl (fun (acc : Met × State) i =>
      let data := spadBytes x (65536 * i) 65536
      let w := memWrite p (pa + 65536 + 65536 * i) data acc.2
      (acc.1.and (w.1.and { poison := anyPoison data }), w.2)) (w.1, w.2)
    (r.1, r.2.modTile t Tile.spadClear)

/-- Whether a kernel of a context runs on a tile of a mask. -/
def ctxRunsOn (s : State) (c : Nat) (m : BitVec 96) : Bool :=
  s.kernels.any (fun k => k.ctx.val == c && k.live &&& m != 0)

/-- Whether a kernel of another context runs on a tile of a mask. -/
def otherRunsOn (s : State) (c : Nat) (m : BitVec 96) : Bool :=
  s.kernels.any (fun k => k.ctx.val != c && k.live &&& m != 0)

/-- Tiles with their places in a mask. -/
def numbered (m : BitVec 96) : List (Nat × Nat) := (List.range (popCount m)).zip (bitsSet m)

/-- A preemption whose kernels have ended saves its tiles and completes (R299, steps 4 and 5); a context that a destroy drains meanwhile
stays DRAINING. -/
def preemptEnd (c : Nat) (s : State) : State :=
  let x := s.ctx c
  match x.preempt with
  | none => s
  | some p =>
    if ctxRunsOn s c x.preMask then s
    else
      let r := (numbered x.preMask).foldl (fun (acc : Met × State) e =>
        let r := saveTile c e.2 (x.preSave + e.1 * recBytes) acc.2
        (acc.1.and r.1, r.2)) (({} : Met), s)
      let s := r.2.modCtx c (fun x =>
        { x with state := if x.state = .active then .preempted else x.state, preempt := none })
      let st := metStatus r.1
      let s := completeCmd p.q.val p.uid st.1 st.2 (popCount x.preMask) s
      if x.resetWaits then settleCtxReset (ctxResetNow c s) else s

/-- A preemption goes on where its records can be written now (R340). -/
def preemptTry (c : Nat) (s : State) : State := orWait (preemptEnd c) s

/-- How a CONTEXT_PREEMPT is refused (R299, R300). -/
def preemptRefusal (c : Cmd) (s : State) : Option (Status × Nat) :=
  let m : BitVec 96 := BitVec.ofNat 96 (leAt c.bytes 32 12)
  if !saveAreaOk (leAt c.bytes 24 8) m then some (.illegal, 0x02)
  else if (bitsSet m).any (fun t => s.withdrawn t && !s.fenced (dieOfTile t)) then some (.illegal, 0x05)
  else if lostTiles m s ≠ 0 then some (.dieLost, lostTiles m s)
  else none

/-- A preemption begins (R299, step 1). -/
def preemptOp (q n : Nat) (c : Cmd) (s : State) : State :=
  if leAt c.bytes 16 1 % 2 = 1 then s
  else if (s.ctx c.ctx).preempt.isSome then illegalCmd q n 0x04 s
  else
    match preemptRefusal c s with
    | some (st, d) => completeCmd q n st d 0 s
    | none =>
      let s := (setPhase q n .running s).modCtx c.ctx (fun x => { x with
        preMask := BitVec.ofNat 96 (leAt c.bytes 32 12), preSave := leAt c.bytes 24 8
        preempt := some ⟨Fin.ofNat 1024 q, n⟩ })
      preemptTry c.ctx s

/-- What waits for kernels to end goes on (R299, R378): a preemption and a context reset. -/
def settleKernels (s : State) : State :=
  settleCtxReset (forEach (s.ctxs.filter (fun e => e.2.preempt.isSome)) (fun e s => preemptTry e.1 s) s)

/-- CONTEXT_PREEMPT (R299): it begins, and completes when the context's kernels have ended on its tiles. -/
def execContextPreempt (q : QId) (n : Nat) (s : State) : Host.Outcome State Fault Refusal :=
  .next (whenLive (onCtxCmd q.val n 0x72 (preemptOp q.val n)) s)

/-- WAIT_US expires (R299, step 3). -/
def preemptTimeoutOp (q n : Nat) (s : State) : State :=
  match startedCmd s q n with
  | none => s
  | some c =>
    let x := s.ctx c.ctx
    if c.opc = 0x72 ∧ c.phase = .running ∧ x.preempt = some ⟨Fin.ofNat 1024 q, n⟩ ∧ leAt c.bytes 20 4 ≠ 0 then
      if nbit (leAt c.bytes 16 1) 1 then
        let s := forEach (s.kernels.filter (fun k => k.ctx.val == c.ctx && k.abort.isNone && k.live &&& x.preMask != 0))
          (fun k s => abortKernel k.kid .preempted 0 s) s
        preemptTry c.ctx s
      else
        let s := s.modCtx c.ctx (fun x => { x with preempt := none, preMask := 0, preSave := 0 })
        let s := completeCmd q n .timeout 0 0 s
        if x.resetWaits then settleCtxReset (ctxResetNow c.ctx s) else s
    else s

/-- PREEMPT_TIMEOUT (R299). -/
def execPreemptTimeout (q : QId) (n : Nat) (s : State) : Host.Outcome State Fault Refusal :=
  .next (whenLive (preemptTimeoutOp q.val n) s)

/-- The record of a tile restored (R300): what it met. -/
def restoreTile (c t pa : Nat) (s : State) : Met × State :=
  let p := savePort s c
  let h := memRead p pa 65536 s
  let headBad := h.1.met.poison
  let b := plain h.1.data
  let map : BitVec 128 := if headBad then BitVec.allOnes 128 else BitVec.ofNat 128 (leAt b 16 16)
  let gen := (s.ctx c).gen
  let s := h.2.modTile t (fun x => { x.spadClear with lastCtx := some (64 * gen + c) })
  let s := if headBad then s else s.modTile t (fun x => { x with grain := Sparse.write 0 x.grain c (leAt b 0 16) })
  let r := (bitsSet map).foldl (fun (acc : Met × State) i =>
    let r := memRead p (pa + 65536 + 65536 * i) 65536 acc.2
    let data := if headBad then poisoned 65536 else r.1.data
    (acc.1.and r.1.met, r.2.modTile t (fun x => x.spadStore (65536 * i) data))) (h.1.met, s)
  (r.1, r.2.modTile t (fun x => { x with written := map }))

/-- A resume (R300): it waits while a kernel of another context runs on its tiles. -/
def resumeOp (q n : Nat) (c : Cmd) (s : State) : State :=
  if leAt c.bytes 16 1 % 2 = 0 then s
  else
    let m : BitVec 96 := BitVec.ofNat 96 (leAt c.bytes 32 12)
    let x := s.ctx c.ctx
    if m ≠ x.preMask ∨ !saveAreaOk (leAt c.bytes 24 8) m then illegalCmd q n 0x02 s
    else if otherRunsOn s c.ctx m then s
    else
      let r := (numbered m).foldl (fun (acc : Met × State) e =>
        if acc.2.fenced (dieOfTile e.2) then (acc.1.and { dies := dieMask (dieOfTile e.2) }, acc.2)
        else
          let r := restoreTile c.ctx e.2 (leAt c.bytes 24 8 + e.1 * recBytes) acc.2
          (acc.1.and r.1, r.2)) (({} : Met), s)
      let s := r.2.modCtx c.ctx (fun x => { x with state := .active, preMask := 0, preSave := 0 })
      let st := metStatus r.1
      completeCmd q n st.1 st.2 (popCount m) s

/-- CONTEXT_RESUME (R300): one whose context has begun to drain while it waited is refused (LOG 48). -/
def execContextResume (q : QId) (n : Nat) (s : State) : Host.Outcome State Fault Refusal :=
  .next (whenServed (onCtxCmd q.val n 0x72 (resumeOp q.val n)) s)

end Sys2Proof.Machine
end

