-- ==== Sys2Proof/Machine/Links.lean ====
section
/-! DEFINITION. The host link (R303-R308): events of the link, host memory made unreachable, configuration requests, functions and
their resets (R298, R377), the contact sheet (R307) and DRV_ACCEPT (R405). -/

namespace Sys2Proof.Machine

/-! ### Host memory unreachable -/

/-- A link-down event on the contact sheet (R305, R307). -/
def countLinkDown (s : State) : State :=
  { s with glb := { s.glb with hostLost := true, linkdowns := satAdd s.glb.linkdowns 1 } }

/-- Whether a ring base lies in host memory. -/
def ringInHost (base : BitVec 36) : Bool := decide (0x100000000000 ≤ base.toNat * 4096)

/-- Queues of functions whose rings lie in host memory enter ERROR (R305). -/
def failRings (f : Nat → Bool) (s : State) : State :=
  let hitS (x : Sq) : Bool := x.state == .active && ringInHost x.base && f x.func.toNat
  let hitC (x : Cq) : Bool := x.state == .active && ringInHost x.base && f x.func.toNat
  { s with
    sqs := Sparse.mapVals {} s.sqs (fun x =>
      if hitS x then { x with state := .error, err := .ringUnreachable, retries := none } else x)
    cqs := Sparse.mapVals {} s.cqs (fun x => if hitC x then { x with state := .error, err := .ringUnreachable } else x) }

/-- The effects of host memory becoming unreachable for functions (R305); the host-line cache is PF0's. -/
def loseHost (f : Nat → Bool) (s : State) : State :=
  let s := failRings f (countLinkDown s)
  if f 0 then dropHostLines s else s

/-- The AER record of a failed completion (R303, R305): whether it is the completion timeout, which sets bit 14 of the uncorrectable error
status, is a free choice; where PF0's mask lets it, a message of its severity goes to the host (LOG 153). -/
def aerNote (f : Nat) (s : State) : State :=
  let pf := Sparse.read {} s.pcie.cfg (if f = 33 then 33 else 0)
  let x := Sparse.read {} s.pcie.cfg f
  if (Config.freeBits s.free 3).getLsbD 0 then
    let s := { s.took with pcie := { s.pcie with
      cfg := Sparse.write {} s.pcie.cfg f { x with aerUncSt := setBit x.aerUncSt 14 true } } }
    if pf.aerMask.getLsbD 14 then s else s.emit (.aerMessage (Fin.ofNat 34 f) (pf.aerSev.getLsbD 14))
  else s.took

/-- HOST_UNREACHABLE (R305). -/
def hostUnreachOp (f : Nat) (c : UnreachCause) (s : State) : State :=
  let p := s.pcie
  match c with
  | .busMasterClear =>
    if fbit p.bme f then loseHost (· == f) { s with pcie := { p with bme := setBit p.bme f false } } else s
  | .d3hot =>
    if fbit p.d3 f then s else loseHost (· == f) { s with pcie := { p with d3 := setBit p.d3 f true } }
  | .failedCompletion =>
    if fbit p.failed f then s else loseHost (· == f) (aerNote f { s with pcie := { p with failed := setBit p.failed f true } })

/-- HOST_UNREACHABLE (R305). -/
def execHostUnreachable (f : FuncId) (cause : UnreachCause) (s : State) : Host.Outcome State Fault Refusal :=
  .next (whenLive (hostUnreachOp f.val cause) s)

/-- What is latched behind the drain of a VF is void once VF Enable is clear (R298). -/
def Pcie.voidVfs (p : Pcie) : Pcie :=
  let off (m : BitVec 34) : BitVec 34 := ((List.range p.numVfs).map (· + 1)).foldl (fun m f => setBit m f false) m
  { p with vfEnable := false, pend := off p.pend, pendFlr := off p.pendFlr }

/-- The reset of the PCIe/CXL controller and of every function's configuration space (R306): the link is down, BARs, Bus Master Enable,
VF Enable and the MSI-X tables are at their reset values. -/
def linkReset (s : State) : State :=
  let s := if s.pcie.linkUp then loseHost (fun _ => true) s else s
  { s with pcie := { s.pcie.voidVfs with
      linkUp := false, cxl := false, bme := 0, d3 := 0, failed := 0, numVfs := 0, msix := [], pba := [], cfg := [] } }

/-- PERST (R306, R307, R427, R442): PERST_N goes to its level, and to 0 for some ns, of which less than 1 µs has no effect; falling resets
the controller, rising lets the link train. The level counts whether the module runs or not. -/
def execPerst (p : PerstLevel) (s : State) : Host.Outcome State Fault Refusal :=
  .next (
    if p.level then { s with pcie := { s.pcie with perst := false } }
    else if s.pcie.perst || decide (p.ns < 1000) then s
    else
      let s := { s with pcie := { s.pcie with perst := true } }
      if s.powered then linkReset s else s)

/-- HOT_RESET (R306). -/
def execHotReset (s : State) : Host.Outcome State Fault Refusal :=
  .next (if s.powered then linkReset s else s)

/-- LINK_DOWN (R306). -/
def execLinkDown (s : State) : Host.Outcome State Fault Refusal :=
  .next (if s.powered then linkReset s else s)

/-- SURPRISE_REMOVAL (R306). -/
def execSurpriseRemoval (s : State) : Host.Outcome State Fault Refusal :=
  .next (if s.powered then linkReset s else s)

/-- LINK_RECOVERY (R306): a retrain through Recovery loses nothing. -/
def execLinkRecovery (s : State) : Host.Outcome State Fault Refusal := .next (whenLive id s)

/-- Whether the PCIe/CXL controller runs (R307, R428, R433, R442): it has power and its clock, and a cold reset does not hold it; it need not
wait for READY. -/
def State.linkRuns (s : State) : Bool := s.powered && s.pwr.refclk && !(s.glb.resetting.isSome && s.ctl.modRst)

/-- LINK_UP (R304): the link trains, in CXL mode or as PCIe only. -/
def execLinkUp (cxl : Bool) (s : State) : Host.Outcome State Fault Refusal :=
  .next (if !s.linkRuns || s.pcie.perst || !s.pwr.pciePll then s else { s with pcie := { s.pcie with linkUp := true, cxl := cxl } })

/-! ### Functions -/

/-- The contexts bound to a function. -/
def boundCtxs (s : State) (f : Nat) : List Nat :=
  (s.ctxs.filter (fun e => e.2.func.toNat == f && e.2.state != .free)).map (·.1)

/-- The contexts of a function destroyed as by CONTEXT_DESTROY (R298, R377); one whose destroy already runs is wiped after it where
a function-level reset asks for it (R387). -/
def destroyFunc (f : Nat) (wipe : Bool) (s : State) : State :=
  forEach (boundCtxs s f) (fun c s =>
    if (s.ctx c).state = .draining then s.modCtx c (fun x => { x with wipe := x.wipe || wipe })
    else startDestroy c none wipe s) s

/-- Whether a function exists: PF0, PF1, and the VFs that are enabled (R271, R298). -/
def funcExists (f : Nat) (s : State) : Bool := f == 0 || f == 33 || (s.pcie.vfEnable && decide (f ≤ s.pcie.numVfs))

/-- A function-level reset of one function begins (R298, R375, R377): its contexts are destroyed and wiped, its configuration space is
reset. -/
def flrOne (f : Nat) (s : State) : State :=
  let s := { s with pcie := { s.pcie with drain := setBit s.pcie.drain f true, flr := setBit s.pcie.flr f true } }
  let s := if fbit s.pcie.bme f then hostUnreachOp f .busMasterClear s else s
  let s := { s with pcie := { s.pcie with
    d3 := setBit s.pcie.d3 f false, failed := setBit s.pcie.failed f false, cfg := Sparse.drop s.pcie.cfg f } }
  destroyFunc f true s

/-- VF Enable cleared (R298, R372): a function-level reset of every enabled VF. -/
def clearVfs (s : State) : State :=
  if s.pcie.vfEnable then
    let fs := (List.range s.pcie.numVfs).map (· + 1)
    let s := { s with pcie := s.pcie.voidVfs }
    forEach fs (fun f s => if fbit s.pcie.drain f then destroyFunc f true s else flrOne f s) s
  else s

/-- A function-level reset begins; PF0's unlocks DRV_ACCEPT (R405), and its configuration space holds VF Enable (R375, LOG 153). -/
def flrStart (f : Nat) (s : State) : State :=
  if f = 0 then
    let s := clearVfs { s with glb := { s.glb with locked := false } }
    flrOne 0 { s with pcie := { s.pcie with numVfs := 0 } }
  else flrOne f s

/-- VF_ENABLE_CLEAR (R298). -/
def execVfEnableClear (s : State) : Host.Outcome State Fault Refusal := .next (whenLive clearVfs s)

/-- A function's MSI-X entries. -/
def msixOf (f k : Nat) : Bool := decide (msixBase f ≤ k) && decide (k < msixBase f + msixCount f)

/-- A function-level reset (R298, R377); during a drain of the function it is latched. -/
def flrOp (f : Nat) (s : State) : State :=
  if !funcExists f s then s
  else if fbit s.pcie.drain f then
    { s with pcie := { s.pcie with pend := setBit s.pcie.pend f true, pendFlr := setBit s.pcie.pendFlr f true } }
  else flrStart f s

/-- FUNCTION_LEVEL_RESET (R377). -/
def execFunctionLevelReset (f : FuncId) (s : State) : Host.Outcome State Fault Refusal :=
  .next (whenLive (flrOp f.val) s)

/-- The end of a function-level reset (R377): its MSI-X table is cleared and its queues drain. -/
def flrEnd (f : Nat) (s : State) : State :=
  let s := { s with pcie := { s.pcie with
    msix := Sparse.keep s.pcie.msix (fun k => !msixOf f k), pba := Sparse.keep s.pcie.pba (fun k => !msixOf f k)
    flr := setBit s.pcie.flr f false } }
  let s := forEach s.sqs (fun e s => if e.2.func.toNat = f then drainSq e.1 1 s else s) s
  forEach s.cqs (fun e s => if e.2.func.toNat = f then drainCq e.1 s else s) s

/-- FUNCTION_DRAIN_END (R298): the function's contexts are FREE; a reset latched meanwhile begins. -/
def funcDrainEnd (f : Nat) (s : State) : State :=
  if fbit s.pcie.drain f && (boundCtxs s f).all (fun c => (s.ctx c).state != .draining) then
    let again := fbit s.pcie.pendFlr f
    let s := if fbit s.pcie.flr f then flrEnd f s else s
    let s := { s with pcie := { s.pcie with
      drain := setBit s.pcie.drain f false, pend := setBit s.pcie.pend f false, pendFlr := setBit s.pcie.pendFlr f false } }
    if again then flrStart f s else s
  else s

/-- FUNCTION_DRAIN_END (R298). -/
def execFunctionDrainEnd (f : FuncId) (s : State) : Host.Outcome State Fault Refusal :=
  .next (whenLive (funcDrainEnd f.val) s)

/-- STATE of CMD_FUNCf_STATE (R298). -/
def funcState (f : Nat) (s : State) : Nat :=
  if fbit s.pcie.drain f then 2
  else if f = 0 ∨ f = 33 then b2n s.glb.ready
  else if s.pcie.vfEnable && decide (f ≤ s.pcie.numVfs) then 1 else 0

/-- A function's configuration space changed. -/
def modStatus (f : Nat) (g : FuncCfg → FuncCfg) (s : State) : State :=
  { s with pcie := { s.pcie with cfg := Sparse.write {} s.pcie.cfg f (g (Sparse.read {} s.pcie.cfg f)) } }

/-- A function's settings changed; the VFs have none of their own (LOG 153). -/
def modCfg (f : Nat) (g : FuncCfg → FuncCfg) (s : State) : State := if f = 0 ∨ f = 33 then modStatus f g s else s

/-- A base address at a multiple of its BAR's size. -/
def barBase (size : Nat) (v : W64) : W64 := BitVec.ofNat 64 (v.toNat / size * size)

/-- The bytes of PF0's BAR2 (R272). -/
def Pcie.bar2Bytes (p : Pcie) : Nat := 2 ^ (30 + (Sparse.read {} p.cfg 0).size.val)

/-- The completion timeout ranges A to D, and the default (R303). -/
def ctoKnown (r : BitVec 4) : Bool := r == 0 || decide (r.toNat % 4 = 1 ∨ r.toNat % 4 = 2)

/-- A configuration request accepted by a function (R272, R303); a code that the module does not support changes nothing (LOG 153). -/
def configOp (f : Nat) (r : ConfigReq) (s : State) : State :=
  let p := s.pcie
  match r with
  | .busMaster true =>
    { s with pcie := { p with bme := setBit p.bme f true, failed := setBit p.failed f false } }
  | .busMaster false => hostUnreachOp f .busMasterClear s
  | .d3hot true => hostUnreachOp f .d3hot s
  | .d3hot false => { s with pcie := { p with d3 := setBit p.d3 f false } }
  | .vfEnable n =>
    if f ≠ 0 then s
    else if n.val = 0 then clearVfs s
    else if p.vfEnable then s
    else
      let fs := (List.range n.val).map (· + 1)
      { s with pcie := { p with
          vfEnable := true, numVfs := n.val
          pend := fs.foldl (fun m g => setBit m g (fbit m g || fbit p.drain g)) p.pend } }
  | .bar0 b => modCfg f (fun x => { x with bar0 := barBase (if f = 0 then 2 ^ 26 else 2 ^ 22) b }) s
  | .bar2 b => if f = 0 then modCfg 0 (fun x => { x with bar2 := barBase (2 ^ (30 + x.size.val)) b }) s else s
  | .barSize n => if f = 0 then modCfg 0 (fun x => { x with size := n, bar2 := barBase (2 ^ (30 + n.val)) x.bar2 }) s else s
  | .vfBar b => if f = 0 then modCfg 0 (fun x => { x with vfBar := barBase (2 ^ 17) b }) s else s
  | .payload m r =>
    modCfg f (fun x => { x with mps := if m.toNat ≤ 2 then m else x.mps, mrrs := if r.toNat ≤ 5 then r else x.mrrs }) s
  | .timeout r off => modCfg f (fun x => { x with cto := if ctoKnown r then r else x.cto, ctoOff := off }) s
  | .aer m v c => modCfg f (fun x => { x with aerMask := m, aerSev := v, aerCor := c }) s
  | .aerClear v => modStatus f (fun x => { x with aerUncSt := x.aerUncSt &&& ~~~v }) s
  | .ecrc g c => modCfg f (fun x => { x with ecrcGen := g, ecrcChk := c }) s
  | .other => s

/-- CONFIGURATION_REQUEST (R298, R307): answered, or retried while the module is not ready or the function drains. -/
def execConfigurationRequest (f : FuncId) (r : ConfigReq) (s : State) : Host.Outcome State Fault Refusal :=
  .next (
    if !s.linkRuns || !s.pcie.linkUp then s
    else if !s.live || !s.glb.ready || fbit s.pcie.drain f.val then s.emit (.retryStatus f)
    else (configOp f.val r s).emit (.configDone f))

/-! ### The contact sheet -/

/-- A write of GLB_CONTACT_DRV (R307). -/
def contactDrvOp (o : Origin) (v : W64) (s : State) : State :=
  if !originQueue o then s
  else if bit v 33 && bit v 34 then logReg 0x1008 (originReq o) s
  else if bit v 33 then
    let e := s.glb.epoch + 1
    { s with glb := { s.glb with epoch := if e = 0 then 1 else e, attached := true, hostLost := false } }
  else if bit v 34 then { s with glb := { s.glb with attached := false } }
  else s

/-- CLAIM (R307). -/
def execClaim (o : Origin) (v : W64) (s : State) : Host.Outcome State Fault Refusal :=
  .next (whenLive (contactDrvOp o v) s)

/-- DETACH (R307). -/
def execDetach (o : Origin) (v : W64) (s : State) : Host.Outcome State Fault Refusal :=
  .next (whenLive (contactDrvOp o v) s)

/-- A write of GLB_CONTACT_CTXc (R307). -/
def adoptOp (o : Origin) (c : Nat) (v : W64) (s : State) : State :=
  if originQueue o && bit v 4 && (s.ctx c).state != .free then s.modCtx c (fun x => { x with epoch := s.glb.epoch })
  else s

/-- ADOPT (R307). -/
def execAdopt (o : Origin) (c : CtxId) (v : W64) (s : State) : Host.Outcome State Fault Refusal :=
  .next (whenLive (adoptOp o c.val v) s)

/-- A write of GLB_DRV_ACCEPTh (R405): by PF0 and the control complex, masked by DEV_FEATURES; while locked every write is
logged. -/
def drvAcceptOp (o : Origin) (h : Nat) (v : W64) (s : State) : State :=
  let may : Bool := match o with
    | .pf0 => true
    | .zoilo _ => true
    | _ => false
  if s.glb.locked && originFull o then logReg (0x310 + 8 * h) (originReq o) s
  else if !may then s
  else if h = 0 then { s with glb := { s.glb with drvAccept := v.setWidth 8 &&& devFeatures s } }
  else s

/-- DRV_ACCEPT_WRITE (R405). -/
def execDrvAcceptWrite (o : Origin) (h : Fin 2) (v : W64) (s : State) : Host.Outcome State Fault Refusal :=
  .next (whenLive (drvAcceptOp o h.val v) s)

end Sys2Proof.Machine
end

