-- ==== Sys2Proof/Machine/Fence.lean ====
section
/-! DEFINITION. The loss of a compute die (R20, R350, R361, R379-R387): its fence, the heartbeat, failing die-to-die modules, and
the exposure of contexts. -/

namespace Sys2Proof.Machine

/-! ### Tile reset -/

/-- An array without work. -/
def ArrayUnit.idle (a : ArrayUnit) : ArrayUnit := { a with queue := [], exec := [] }

/-- The end of a tile reset, once its kernel has stopped (R375, R376). -/
def tileResetEnd (t : Nat) (s : State) : State :=
  let regs := 0xA40000 + 0x100000 * dieOfTile t + 0x1000 * (t % 24)
  let s := dropHalves (fun k => k == regs + 0x100 || k == regs + 0x200) (dropTileWaits t s)
  let s := s.modTile t (fun x =>
    { waiting := x.waiting, arr0 := x.arr0.idle, arr1 := x.arr1.idle })
  { s with glb := { s.glb with tileBusy := none } }

/-- The tile reset under way ends where its tile is free. -/
def settleTileReset (s : State) : State :=
  match s.glb.tileBusy with
  | some t => if (s.tile t).run.isNone then tileResetEnd t s else s
  | none => s

/-! ### Fence -/

/-- The causes of GLB_FENCE (R379). -/
def fenceHeartbeat : Nat := 1
def fencePll : Nat := 2
def fenceThermal : Nat := 3
def fenceFabric : Nat := 4
def fenceReset : Nat := 5
def fenceTraining : Nat := 6
def fenceRevision : Nat := 7

/-- DIE_FENCED (R393). -/
def logFence (d cause : Nat) (s : State) : State :=
  logRas { cls := .fence, code := 0x40, unit := unitDie d, info := cause } (trace 0 1 (d + 256 * cause) s)

/-- The work of a tile of a lost die abandoned (R380): its threads, its operations and the writes it had not performed. -/
def abandonTile (t : Nat) (s : State) : State :=
  let s := match (s.tile t).run with
    | some r => s.modKernel r.kid (fun k => { k with live := setBit k.live t false })
    | none => s
  (dropTileWaits t s).modTile t (fun x => { x with
    run := none, merge := [], fills := [], l1 := [], arr0 := x.arr0.idle, arr1 := x.arr1.idle, vx := [], dx := [] })

/-- Waits homed on a lost die, under way or pending, end (R268). -/
def loseWaits (d : Nat) (s : State) : State :=
  let hit (w : Wait) : Bool := dieOfObj w.phys == d
  let l := s.sync.waits.filter hit ++ s.sync.arrivals.filter hit ++ (s.sync.returns.map (·.1)).filter hit
  forEach l loseWait (keepWaits (fun w => !hit w) s)

/-- The kernels that have threads on a die, or were placed there, end with ST_DIE_LOST (R380); those that other tiles run stop
there by R140. -/
def loseKernels (d : Nat) (l : List Kernel) (s : State) : State :=
  forEach l (fun k s =>
    match s.kernel? k.kid with
    | some k => if k.abort.isNone then abortKernel k.kid .dieLost (2 ^ d) s else finishKernel k.kid s
    | none => s) s

/-- The contexts exposed to a die now (R382). -/
def exposedNow (d : Nat) (s : State) : W64 :=
  (List.range 64).foldl (fun m c => if (s.ctx c).state != .free && exposedTo c d s then setBit m c true else m) 0

/-- Zoilo's answer to the loss of every copy of a record of the firmware reserve (R201, R372): a warm device reset. Records stand in at
least two of the four regions, one on each die. The reset runs in the next COLD_RESET (LOG 150); until then the module goes on. -/
def reserveCheck (s : State) : State :=
  let lost := dieList.foldl (fun (m : BitVec 4) d => if s.fenced d then m ||| dieMask d else m) 0
  if 2 ≤ (bitsSet lost).length && (lost == 15 || Config.recordsLost lost) then
    { s with glb := { s.glb with warmDue := true } }
  else s

/-- A compute die fenced (R379-R382): cause, partner edge, near cache, work, waits, kernels, record. On a die that is fenced already
the cause is only logged (R387). -/
def fenceDie (d cause : Nat) (s : State) : State :=
  if s.fenced d then logFence d cause s
  else
    let found := exposedNow d s
    let hit := s.kernels.filter (fun k => (k.live ||| k.todo) &&& dieTiles d != 0)
    let s := s.modDie d (fun x => { x with
      fenced := true, cause := BitVec.ofNat 4 cause, exposing := true, exposeFound := found, partnerUp := false, nc := []
      phase := .idle, latched := false, hold := false, clamp := false, droops := 0 })
    let s := s.modDie (partner d) (fun x => { x with partnerUp := false })
    let s := forEach (tilesOfDie d) abandonTile s
    let s := loseKernels d hit (loseWaits d s)
    reserveCheck (logFence d cause (settleTileReset (settleRx (settleKernels (sweepColls s)))))

/-- HEARTBEAT (R379): answers clear a die's count; with the eighth heartbeat in a row that it does not answer it is fenced. -/
def heartbeatOp (answered : BitVec 4) (s : State) : State :=
  forEach dieList (fun d s =>
    if s.fenced d then s
    else if answered.getLsbD d then s.modDie d (fun x => { x with hbMissed := 0 })
    else
      let s := s.modDie d (fun x => { x with hbMissed := x.hbMissed + 1 })
      if 8 ≤ (s.die d).hbMissed then fenceDie d fenceHeartbeat s else s) s

/-- HEARTBEAT (R379). -/
def execHeartbeat (answered : BitVec 4) (s : State) : Host.Outcome State Fault Refusal :=
  .next (whenLive (heartbeatOp answered) s)

/-- HEARTBEAT_TIMEOUT (R379): no effect on a die that is fenced (R387). -/
def execHeartbeatTimeout (d : DieId) (s : State) : Host.Outcome State Fault Refusal :=
  .next (whenLive (fun s => if s.fenced d.val then s else fenceDie d.val fenceHeartbeat s) s)

/-- DIE_FABRIC_ERROR (R379). -/
def execDieFabricError (d : DieId) (s : State) : Host.Outcome State Fault Refusal :=
  .next (whenLive (fenceDie d.val fenceFabric) s)

/-- EXPOSURE_DETERMINED (R382): the contexts found exposed at the fence and not destroyed since, by Z3 (R400). -/
def exposureEnd (d : Nat) (s : State) : State :=
  let x := s.die d
  if x.exposing && !s.serviceDown 3 then
    let s := s.modDie d (fun x => { x with exposing := false })
    { s with glb := { s.glb with exposed := s.glb.exposed ||| x.exposeFound } }
  else s

/-- EXPOSURE_DETERMINED (R382). -/
def execExposureDetermined (d : DieId) (s : State) : Host.Outcome State Fault Refusal :=
  .next (whenLive (exposureEnd d.val) s)

/-! ### Die-to-die modules -/

/-- The role of a module: 0 memory, 1 collective, 2 control/sync, 3 not working. -/
def roleOf (roles : BitVec 48) (m : Nat) : Nat := fld roles (2 * m + 1) (2 * m)

/-- The modules of the edge that a module belongs to (R15): M0-M15 face H, M16-M23 the partner. -/
def edgeOf (m : Nat) : List Nat := if m < 16 then List.range 16 else (List.range 8).map (16 + ·)

/-- The partner edge of a die disabled at both ends (R19). -/
def cutPartners (d : Nat) (s : State) : State :=
  (s.modDie d (fun x => { x with partnerUp := false })).modDie (partner d) (fun x => { x with partnerUp := false })

/-- A module fails in service (R20): the others of its role carry its traffic; without its edge's control module, the partner edge
is disabled or the heartbeat stops. Traffic in flight on it is retried on the others (R20, R393). -/
def moduleFails (d m : Nat) (retried : Bool) (s : State) : State :=
  let role := roleOf (s.die d).roles m
  if s.fenced d ∨ role = 3 then s
  else
    let s := s.modDie d (fun x => { x with roles := setFld x.roles (2 * m + 1) (2 * m) 3 })
    let s := logRas { cls := .degraded, code := 0x31, unit := unitDie d, info := m } s
    let s := if retried then logRas { cls := .corrected, code := 0x30, unit := unitDie d, info := m } s else s
    if role = 2 then if m < 16 then fenceDie d fenceHeartbeat s else cutPartners d s
    else s

/-- D2D_MODULE_FAILURE (R20). -/
def execD2dModuleFailure (d : DieId) (m : Fin 24) (retried : Bool) (s : State) : Host.Outcome State Fault Refusal :=
  .next (whenLive (moduleFails d.val m.val retried) s)

/-- D2D_LOOPBACK_TEST (R21): only in the states that permit test. -/
def execD2dLoopbackTest (x : Fin 5) (on : Bool) (s : State) : Host.Outcome State Fault Refusal :=
  .next (whenLive (fun s =>
    if !s.lcService then s
    else if x.val = 0 then settleReturns { s with hub := { s.hub with loopback := on } }
    else settleReturns (s.modDie (x.val - 1) (fun d => { d with loopback := on }))) s)

end Sys2Proof.Machine
end

