-- ==== Sys2Proof/Machine/Resets.lean ====
section
/-! DEFINITION. Supplies and clocks (R344-R350, R361), and the resets of the module, of a die, of a tile and of a context
(R372-R378, R385-R387), with the boot of the firmware (R398, R399, R406, R407, R414) and the assignment of the die-to-die roles
(R17-R19). -/

namespace Sys2Proof.Machine

/-! ### What survives -/

/-- The PCIe/CXL controller and the configuration spaces at their reset values (R306): the link is down, PERST_N as it is. -/
def State.freshPcie (s : State) : Pcie := { State.reset.pcie with linkUp := false, perst := s.pcie.perst }

/-- What a die keeps of itself (R361): its temperature, and the fence of a trip. -/
def Die.kept (x : Die) : Die :=
  { temp := x.temp, peak := x.temp, tripped := x.tripped, fenced := x.tripped, cause := if x.tripped then x.cause else 0 }

/-- The module with every register at its Reset value and every memory zero: fuses, flash, the VIN_AUX domain, pins, supplies and
the PCIe/CXL controller, whose reset came with the request, keep what they hold, and so do the commands that wait, the host's memory and what has left the module. -/
def blankState (s : State) : State :=
  let r := State.reset
  { r with
    pending := s.pending, free := s.free, out := s.out, worn := s.worn, fuses := s.fuses, flash := s.flash, aux := s.aux
    hostMem := s.hostMem
    hub := { r.hub with temp := s.hub.temp, peak := s.hub.temp }
    dies := dieList.foldl (fun m d => Sparse.write {} m d (s.die d).kept) []
    glb := { r.glb with ready := false, resetting := s.glb.resetting }
    pcie := s.pcie
    pwr := { r.pwr with
      auxV := s.pwr.auxV, ioV := s.pwr.ioV, mainV := s.pwr.mainV, off := s.pwr.off, vmain := s.pwr.vmain
      vio := s.pwr.vio, vaux := s.pwr.vaux, refclk := s.pwr.refclk, pciePll := s.pwr.pciePll
      serdesPll := s.pwr.serdesPll }
    ctl := { r.ctl with modRst := s.ctl.modRst, present := s.ctl.present, tap := s.ctl.tap, cells := s.ctl.cells, nonce := s.ctl.nonce } }

/-- A stored write in flash (R375). -/
def storeFlash (w : FlashStore) (f : Flash) : Flash :=
  match w with
  | .d2d v => { f with d2dNext := v }
  | .qrole v => { f with qroleNext := v }
  | .region st b v =>
    { f with regionNext := Sparse.write (RegionReg.default b.val).next f.regionNext (32 * st.val + b.val) v }
  | .nodeId v => { f with nodeId := v }

/-- Every write that waits for flash stored. -/
def storeAll (f : Flash) : Flash := { f.stores.foldl (fun f w => storeFlash w f) f with stores := [] }

/-- The writes that module flash has not stored yet when power is lost: each is stored or lost, a free choice (R375). -/
def loseStores (s : State) : State :=
  let l := (s.flash.stores.zipIdx.filter (fun e => (Config.freeBits s.free e.2).getLsbD 0)).map (·.1)
  { s.took with flash := storeAll { s.flash with stores := l } }

/-- The module without power: its memories and registers are lost (R347). -/
def losePower (s : State) : State :=
  let s := blankState (loseStores s)
  { s with
    glb := { s.glb with resetting := none }, pcie := s.freshPcie, pwr := { s.pwr with pciePll := true }
    ctl := { s.ctl with tap := .idcode, cells := {} } }

/-- A cold reset requested; the module stops until it runs (R372, R386), and its PCIe/CXL controller is reset at once. A request that meets
another which has not run takes its place, unless that one's cause is hub loss, hub PLL loss, a hub trip or a life-cycle transition
(LOG 166). -/
def requestCold (cause : Nat) (s : State) : State :=
  let kept := s.glb.resetting.filter (fun c => c == 3 || c == 4 || c == 8 || c == 9)
  { s with glb := { s.glb with resetting := some (kept.getD cause), ready := false }, pcie := s.freshPcie }

/-! ### Supplies and clocks -/

/-- A violation of the order of the inputs (R348): rails off, PWR_SEQ_FAULT latched, the cause kept in the FRU EEPROM. -/
def seqFault (cause : Nat) (s : State) : State :=
  let s := losePower s
  { s with
    pwr := { s.pwr with off := true }
    aux := { s.aux with seqFault := true, fruSeqCause := cause, seqNew := true, seqUnack := true } }

/-- VIN_MAIN valid with the other inputs valid (R347, R361): the module starts, unless PWR_SEQ_FAULT is latched. -/
def powerUp (s : State) : State :=
  let s := { s with pwr := { s.pwr with mainV := true } }
  if s.aux.seqFault then s
  else
    let cause := if s.aux.trip.getLsbD 0 then 8 else s.aux.cause.getD 0
    requestCold cause { s with pwr := { s.pwr with off := false } }

/-- What the input monitors find at a supply event (R348): the cause of a sequence fault, or none; of monitors in an unknown state
(R423), and of a ramp in order but outside the times of R424 (`ramp` false), a free choice. -/
def verdict (c : Option Nat) (ramp : Bool) (s : State) : Option Nat :=
  let w := (Config.freeBits s.free 0).toNat
  let any := if w % 2 = 0 then none else some (w / 2 % 4 + 1)
  if s.aux.unknown then any
  else if c.isNone && !ramp then any
  else c

/-- A supply event as the monitors find it: a sequence fault of cause `c`, or what follows without one. -/
def judged (c : Option Nat) (ramp : Bool) (ok : State → State) (s : State) : State :=
  let t := if s.aux.unknown || !ramp then s.took else s
  match verdict c ramp s with
  | some c => seqFault c t
  | none => ok t

/-- The monitors as VIN_AUX becomes valid (R423): a contact driven while it was absent may leave them in an unknown state (`driven`); an
absence of 1 s ends such a state (`off1s`). -/
def wakeMonitors (driven off1s : Bool) (s : State) : State :=
  if driven then
    { s.took with aux := { s.aux with unknown := (s.aux.unknown && !off1s) || (Config.freeBits s.free 0).getLsbD 0 } }
  else { s with aux := { s.aux with unknown := s.aux.unknown && !off1s } }

/-- An input becomes valid (R347, R348, R423, R424). -/
def supplyValidOp (i : Supply) (r : SupplyRise) (s : State) : State :=
  let p := s.pwr
  match i with
  | .aux =>
    if p.auxV then s
    else
      let s := wakeMonitors r.driven r.off1s { s with pwr := { p with auxV := true } }
      if p.ioV || p.mainV then judged (some 4) r.ramp id s
      else if r.ramp then s
      else judged none false id s
  | .io =>
    if p.ioV then s
    else
      let s := { s with pwr := { p with ioV := true } }
      if !p.auxV || s.aux.seqFault then s
      else judged (if r.gapMet then none else some 1) r.ramp id s
  | .main =>
    if p.mainV then s
    else
      let s := { s with pwr := { p with mainV := true } }
      if !p.auxV || s.aux.seqFault then s
      else judged (if p.ioV && r.gapMet then none else some 2) r.ramp powerUp s

/-- SUPPLY_VALID (R347, R348, R423, R424). -/
def execSupplyValid (i : Supply) (r : SupplyRise) (s : State) : Host.Outcome State Fault Refusal :=
  .next (supplyValidOp i r s)

/-- The cause of a hub loss that the supply sequencer holds (R386): kept while VIN_AUX stays valid. -/
def heldLoss (s : State) : Option Nat := s.aux.cause.filter (fun c => c == 3 || c == 4)

/-- An input leaves its range (R347, R348, R361, R386). -/
def supplyLostOp (i : Supply) (s : State) : State :=
  let p := s.pwr
  match i with
  | .main =>
    if !p.mainV then s
    else
      let t := losePower s
      { t with
        pwr := { t.pwr with mainV := false }
        aux := { t.aux with cause := (heldLoss s).or (if p.auxV && p.ioV && !p.off then some 6 else s.aux.cause) } }
  | .io =>
    if !p.ioV then s
    else
      let t := { s with pwr := { p with ioV := false }, aux := { s.aux with cause := heldLoss s } }
      if p.mainV && p.auxV && !s.aux.seqFault then judged (some 3) true id t else t
  | .aux =>
    if !p.auxV then s
    else
      let s := losePower s
      { s with
        pwr := { s.pwr with auxV := false }
        aux := { s.aux with seqFault := false, trip := 0, cause := none }
        dies := Sparse.mapVals {} s.dies (fun x => { x with tripped := false, fenced := false, cause := 0 }) }

/-- SUPPLY_LOST (R347). -/
def execSupplyLost (i : Supply) (s : State) : Host.Outcome State Fault Refusal := .next (supplyLostOp i s)

/-- VIN_MAIN_DIP (R345): ridden through and counted, or a loss of VIN_MAIN. -/
def execVinMainDip (us mv : Nat) (s : State) : Host.Outcome State Fault Refusal :=
  .next (
    if us ≤ 100 ∧ 36000 ≤ mv then whenLive (fun s => { s with pwr := { s.pwr with uv := satAdd s.pwr.uv 1 } }) s
    else supplyLostOp .main s)

/-- The place of a PLL in the table of R349: root 0-4, HBM 5-8, D2D 9-13, PCIe 14, SerDes 15. -/
def pllIndex : Pll → Nat
  | .root x => x.val
  | .hbm d => 5 + d.val
  | .d2d x => 9 + x.val
  | .pcie => 14
  | .serdes => 15

/-- The flag of a PLL. -/
def setPll (p : Pll) (lost : Bool) (s : State) : State :=
  match p with
  | .pcie => { s with pwr := { s.pwr with pciePll := !lost } }
  | .serdes => { s with pwr := { s.pwr with serdesPll := !lost } }
  | _ => { s with pwr := { s.pwr with pllLost := setBit s.pwr.pllLost (pllIndex p) lost } }

/-- Hub loss (R386): the cause held by the sequencer, a cold reset to follow. -/
def hubLost (cause : Nat) (s : State) : State := requestCold cause { s with aux := { s.aux with cause := some cause } }

/-- A PLL loses lock (R350). -/
def pllLossOp (p : Pll) (s : State) : State :=
  let s := setPll p true s
  match p with
  | .root x => if x.val = 0 then hubLost 4 s else fenceDie (x.val - 1) fencePll s
  | .d2d x => if x.val = 0 then hubLost 4 s else fenceDie (x.val - 1) fencePll s
  | .hbm d => fenceDie d.val fencePll s
  | .pcie => if s.pcie.linkUp then linkReset s else s
  | .serdes => forEach (List.range 16) (fun q s =>
      s.modQuad q (fun x => if x.role = 0 then x else { x.retrain with state := 0 })) s

/-- A PLL loses lock while the module is in reset (R350, R442): the PCIe PLL's and the SerDes PLL's state counts, the others are held. -/
def pllLossHeld (p : Pll) (s : State) : State :=
  match p with
  | .pcie => if s.pcie.linkUp then linkReset (setPll p true s) else setPll p true s
  | .serdes => setPll p true s
  | _ => s

/-- PLL_LOSS_OF_LOCK (R350). -/
def execPllLossOfLock (p : Pll) (s : State) : Host.Outcome State Fault Refusal :=
  .next (if s.live then pllLossOp p s else if s.powered then pllLossHeld p s else s)

/-- A PLL that had lost lock locks again (R350, R393): the quads train, the link may come up. -/
def pllRelockOp (p : Pll) (s : State) : State :=
  let was : Bool := match p with
    | .pcie => !s.pwr.pciePll
    | .serdes => !s.pwr.serdesPll
    | _ => s.pwr.pllLost.getLsbD (pllIndex p)
  if !was then s
  else
    let s := logRas { cls := .notice, code := 0x61, unit := unitNone, info := Config.pllCode (pllIndex p) } (setPll p false s)
    match p with
    | .serdes => forEach (List.range 16) (fun q s =>
        s.modQuad q (fun x => if x.role = 0 then x else { x with state := 1 })) s
    | _ => s

/-- PLL_RELOCK (R350). -/
def execPllRelock (p : Pll) (s : State) : Host.Outcome State Fault Refusal :=
  .next (
    if s.live then pllRelockOp p s
    else if s.powered && (p == .pcie || p == .serdes) then setPll p false s else s)

/-- REFCLK_LOSS (R350, R426): every die is held in reset. -/
def execRefclkLoss (s : State) : Host.Outcome State Fault Refusal :=
  .next { s with pwr := { s.pwr with refclk := false } }

/-- REFCLK_RETURN (R350): a cold reset follows. -/
def execRefclkReturn (s : State) : Host.Outcome State Fault Refusal :=
  .next (
    if s.pwr.refclk then s
    else
      let s := { s with pwr := { s.pwr with refclk := true } }
      if s.glb.resetting.isNone then requestCold 5 s else s)

/-- A trip at 115 °C (R361): the latch and the FRU record; a compute die is fenced until its die reset, the hub turns the module off.
The dies of a module that does not run are held in reset already (R350, R386), and the tripped one stays fenced. -/
def tripOp (x : Nat) (s : State) : State :=
  let s := { s with aux := { s.aux with
    trip := setBit s.aux.trip x true, fruTrips := s.aux.fruTrips ++ [Fin.ofNat 5 x] } }
  if x = 0 then
    let s := losePower { s with hub := { s.hub with temp := BitVec.ofNat 8 (max s.hub.temp.toNat 115) } }
    { s with pwr := { s.pwr with off := true } }
  else if !s.live then
    s.modDie (x - 1) (fun y => { y with
      tripped := true, fenced := true, cause := if y.fenced || y.held then y.cause else BitVec.ofNat 4 fenceThermal })
  else
    let d := x - 1
    let t := max (s.die d).temp.toNat 115
    let s := s.modDie d (fun y => { y.takeTemp t with tripped := true })
    let s := fenceDie d fenceThermal s
    logRas { cls := .fence, code := 0x52, unit := unitDie d, info := t } s

/-- THERMAL_TRIP (R361, R402): while the rails are on, whether the control complex runs or not. -/
def execThermalTrip (x : Fin 5) (s : State) : Host.Outcome State Fault Refusal :=
  .next (if s.powered then tripOp x.val s else s)

/-- HUB_LOSS (R386). -/
def execHubLoss (c : HubLossCause) (s : State) : Host.Outcome State Fault Refusal :=
  .next (whenLive (hubLost (match c with | .pll => 4 | _ => 3)) s)

/-- MOD_RST_N (R428): low for `ns`, and high again if `released`; `starts` is what a pulse of 1 µs to 10 µs does. -/
def execModRstN (ns : Nat) (starts released : Bool) (s : State) : Host.Outcome State Fault Refusal :=
  .next (
    let s := { s with ctl := { s.ctl with modRst := !released } }
    if (10000 ≤ ns ∨ (1000 ≤ ns ∧ starts = true)) ∧ s.powered = true then requestCold 7 s else s)

/-- The instruction that the TAP acts on (R432): EXTEST, CLAMP and HIGHZ act as BYPASS unless MOD_RST_N is held low. -/
def tapActs (s : State) : JtagInstr :=
  if [JtagInstr.extest, .clamp, .highz].contains s.ctl.tap && !s.ctl.modRst then .bypass else s.ctl.tap

/-- An output contact driven low (R429, R432): as the module has it, as its boundary-scan cell has it under EXTEST and CLAMP, and never under
HIGHZ. -/
def contactLow (cell own : Bool) (s : State) : Bool :=
  match tapActs s with
  | .extest => cell
  | .clamp => cell
  | .highz => false
  | _ => own

/-- THERMTRIP_N driven low (R429): while a trip latch is set and VIN_AUX is valid; high impedance otherwise. -/
def thermtripLow (s : State) : Bool := contactLow s.ctl.cells.therm (s.pwr.auxV && s.aux.trip != 0) s

/-- SEQFLT_N driven low (R348, R429): while PWR_SEQ_FAULT is latched and VIN_AUX is valid; high impedance otherwise. -/
def seqfltLow (s : State) : Bool := contactLow s.ctl.cells.seqflt (s.pwr.auxV && s.aux.seqFault) s

/-- What SAMPLE captures of the contacts (R432): which of them are low. -/
def contacts (s : State) : Cells := ⟨s.pcie.perst, s.ctl.modRst, thermtripLow s, seqfltLow s⟩

/-- PRSNT_N (R433, R434): the contact; the baseboard acts on it. -/
def execPrsntN (high : Bool) (s : State) : Host.Outcome State Fault Refusal :=
  .next { s with ctl := { s.ctl with present := !high } }

/-! ### Boot -/

/-- The image a slot holds, as the boot ROM reads it (R406). -/
def slotHeader (x : ImageSlot) : List Byte := Mem.bytes x.raw 0 96

/-- A header's fields. -/
def hVersion (h : List Byte) : Nat := leAt h 4 4
def hSvn (h : List Byte) : Nat := leAt h 8 4
def hHubMin (h : List Byte) : Nat := leAt h 12 1
def hCompMin (h : List Byte) : Nat := leAt h 13 1
def hKeyid (h : List Byte) : Nat := leAt h 14 1
def hHubKnown (h : List Byte) : List Nat := ((h.drop 16).take 4).map (·.toNat)
def hCompKnown (h : List Byte) : List Nat := ((h.drop 20).take 4).map (·.toNat)

/-- The stepping of a die, 0 H, 1-4 C0-C3 (R397). -/
def State.step (s : State) (x : Nat) : BitVec 8 := Sparse.read 0x10 s.fuses.step x

/-- The feature word of a die (R397): its bits 0-7, the others being reserved. -/
def State.word (s : State) (x : Nat) : BitVec 8 := Sparse.read 0xFF s.fuses.feat x

/-- Whether a stepping is at least a minimum and known (R398). -/
def stepFits (step : Nat) (min : Nat) (known : List Nat) : Bool := decide (min ≤ step) && step != 0xFF && known.contains step

/-- Whether the digest in the header is that of the body (R406): SHAKE256 of the LENGTH bytes from byte 16,384 of the slot. -/
def digestHolds (x : ImageSlot) : Bool :=
  let h := slotHeader x
  let n := leAt h 24 4
  decide (16384 + n ≤ 2 ^ 25) && (h.drop 32).take 64 == shake256 (Mem.bytes x.raw 16384 n) 64

/-- Whether the vendor image key matches the fused digest that a KEYID names, and is not revoked (R406, R407). -/
def keyHolds (s : State) (id : Nat) : Bool :=
  decide (id ≤ 1) && !(id == 0 && s.fuses.keyRevoked) &&
    BitVec.ofNat 256 (ofBytes (shake256 s.flash.vendorKey 32)) == (if id = 0 then s.fuses.keyDigest0 else s.fuses.keyDigest1)

/-- Whether the key, the signature and the body digest of an image hold (R407). -/
def imageSound (s : State) (x : ImageSlot) : Bool :=
  keyHolds s (hKeyid (slotHeader x)) && Config.imageVerifies s.flash.vendorKey x.raw && digestHolds x

/-- Whether the boot ROM takes an image (R407). -/
def imageFits (s : State) (x : ImageSlot) : Bool :=
  let h := slotHeader x
  x.valid && imageSound s x && decide (s.fuses.svn ≤ hSvn h) && stepFits (s.step 0).toNat (hHubMin h) (hHubKnown h)

/-- The slot the boot ROM selects (R407): the higher VERSION first, slot A on a tie; none in RETIRED (R412). -/
def bootSlot (s : State) : Option Bool :=
  let a := s.flash.slotA
  let b := s.flash.slotB
  if s.fuses.lcState = 5 then none
  else
    let order := if hVersion (slotHeader a) < hVersion (slotHeader b) then [true, false] else [false, true]
    order.find? (fun i => imageFits s (if i then b else a))

/-- The running firmware's values (R398, R406, R407). -/
def loadImage (slot : Bool) (s : State) : State :=
  let x := if slot then s.flash.slotB else s.flash.slotA
  let h := slotHeader x
  { s with
    glb := { s.glb with fwMinHub := BitVec.ofNat 8 (hHubMin h), fwMinComp := BitVec.ofNat 8 (hCompMin h) }
    ctl := { s.ctl with version := BitVec.ofNat 32 (hVersion h), slot := slot, feats := Config.imageFeatures x.raw
                        digest := BitVec.ofNat 512 (ofBytes ((h.drop 32).take 64)) } }

/-- The wipe of a life-cycle transition (R414, step 3). -/
def lifeWipe (s : State) : State :=
  if s.flash.lcRecorded = s.fuses.lcState then s
  else { s with flash := { s.flash with
    d2dNext := 0, qroleNext := 0x55555555, regionNext := [], nodeId := 0, logCopy := [], stores := []
    lcRecorded := s.fuses.lcState } }

/-! ### Interleave and quads from flash -/

/-- Whether a band's values are one of the forms of R198. -/
def bandValid (b : Nat) (v : List Nat) : Bool :=
  (b != 31 && v.all (· == 0)) ||
    (v.all (· != 0) && v.all (decide <| · ≤ 2) &&
      (List.range 4).all (fun t =>
        let l := ((v.drop (3 * t)).take 3).map (· == 1)
        l.all (·) || l.all (!·)) &&
      (List.range 12).all (fun h => !regionRsv h b || v.getD h 0 == 2))

/-- A band's stored values. -/
def storedBand (s : State) (b : Nat) : List Nat :=
  (List.range 12).map (fun st => (Sparse.read (RegionReg.default b).next s.flash.regionNext (32 * st + b)).toNat)

/-- NEXT and ACTIVE of every band from flash; a band whose values fail R198 takes the default (R200). -/
def loadBands (s : State) : State :=
  forEach (List.range 32) (fun b s =>
    let v := storedBand s b
    if bandValid b v then
      forEach (List.range 12) (fun st s =>
        let x := BitVec.ofNat 2 (v.getD st 0)
        s.setRegion st b ⟨x, x, false⟩) s
    else s) s

/-- The role a quad takes (R310, R311). -/
def quadRole (next : W32) (q : Nat) : Nat :=
  let r (i : Nat) : Nat := fld next (2 * i + 1) (2 * i)
  if r q = 3 then if r (if q % 2 = 0 then q + 1 else q - 1) = 3 then 3 else 0 else r q

/-- Quad roles, NODE_ID and the incarnation from flash (R310, R311, R314); without NETREF a quad that has a role is FAILED (R442). -/
def loadNet (s : State) : State :=
  let inc := s.flash.incarn + 1
  let n := s.flash.qroleNext
  let s := { s with
    flash := { s.flash with incarn := inc }
    net := { s.net with qroleNext := n, nodeId := s.flash.nodeId, incarn := inc } }
  forEach (List.range 16) (fun q s =>
    let dead := !s.pwr.serdesPll && quadRole n q != 0
    let s := s.setQuad q { role := BitVec.ofNat 2 (quadRole n q), state := if dead then 3 else 0 }
    let s := if dead then logRas { cls := .degraded, code := 0x34, unit := unitQuad q, info := 3 } s else s
    if fld n (2 * q + 1) (2 * q) = 3 ∧ quadRole n q = 0 then logReg 0x700000 .hub s else s) s

/-! ### Die-to-die roles -/

/-- Full-edge collective counts of a profile: hub edge, partner edge (R17). -/
def profileColl (p : Nat) : Nat × Nat := if p = 1 then (5, 3) else if p = 2 then (1, 0) else (3, 1)

/-- Roles of an edge (R18): `ms` are its working modules in descending order. -/
def edgeRoles (c : Nat) (ms : List Nat) (roles : BitVec 48) : BitVec 48 :=
  let coll := min c ((ms.length - 1) / 2)
  (List.range ms.length).foldl (fun r i =>
    let m := ms.getD i 0
    setFld r (2 * m + 1) (2 * m) (if i = 0 then 2 else if i ≤ coll then 1 else 0)) roles

/-- The roles of a die whose modules `fail` did not train (R18). -/
def assignRoles (profile : Nat) (fail : List Nat) : BitVec 48 :=
  let up (l : List Nat) : List Nat := (l.filter (fun m => !fail.contains m)).reverse
  edgeRoles (profileColl profile).2 (up ((List.range 8).map (16 + ·)))
    (edgeRoles (profileColl profile).1 (up (List.range 16)) (BitVec.allOnes 48))

/-- The modules of a die that a bring-up finds failing. -/
def failing (b : Bringup) (d : Nat) : List Nat := (b.d2dFail.filter (fun e => e.1.val == d)).map (·.2.val)

/-- How many modules of an edge work. -/
def working (fail edge : List Nat) : Nat := (edge.filter (fun m => !fail.contains m)).length

/-- Whether a die's end of its partner edge works (R19, R20): it trained with two modules or more, and its control module is not
lost. -/
def Die.partnerEnd (x : Die) : Bool := x.edgeOk && (List.range 8).any (fun i => roleOf x.roles (16 + i) == 2)

/-- Whether the partner edge of a die carries traffic (R19, R20, R380). -/
def partnerWorks (d : Nat) (s : State) : Bool :=
  (s.die d).partnerEnd && (s.die (partner d)).partnerEnd && !s.fenced d && !s.fenced (partner d)

/-- PARTNER_UP at both ends of the edge of a die. -/
def settlePartner (d : Nat) (s : State) : State :=
  let up := partnerWorks d s
  (s.modDie d (fun x => { x with partnerUp := up })).modDie (partner d) (fun x => { x with partnerUp := up })

/-- Both partner edges, after a cold or warm device reset. -/
def settlePartners (s : State) : State := settlePartner 2 (settlePartner 0 s)

/-- Whether a bring-up trains two modules or more of a die's partner edge (R19). -/
def edgeTrains (b : Bringup) (d : Nat) : Bool := decide (2 ≤ working (failing b d) ((List.range 8).map (16 + ·)))

/-! ### Self-tests -/

/-- PC_FAILED, ARRAY_OFF and TILE_WITHDRAWN (R57, R214, R393, R394). -/
def logPcFailed (st pc : Nat) (s : State) : State :=
  logRas { cls := .degraded, code := 0x12, unit := unitStack st, info := pc } s
def logArrayOff (t a : Nat) (s : State) : State :=
  logRas { cls := .degraded, code := 0x32, unit := unitTile t, info := a } s
def logWithdrawn (t cause : Nat) (s : State) : State :=
  logRas { cls := .degraded, code := 0x33, unit := unitTile t, info := cause } s

/-- The failing pseudo-channels of a stack as PC_FAIL (R214). -/
def failedPcs (b : Bringup) (st : Nat) : W32 :=
  (b.pcFail.filter (fun e => e.1.val == st)).foldl (fun m e => setBit m e.2.val true) 0

/-- A tile after the self-tests of a bring-up (R57, R394). -/
def testTile (b : Bringup) (t : Nat) (s : State) : State :=
  let fails (a : Nat) : Bool := b.arrFail.any (fun x => x.val == 2 * t + a)
  let bad (a : Nat) : Bool := fails a || s.broken t a
  let tested (a : Nat) (u : ArrayUnit) : ArrayUnit := { u with bistFail := bad a, off := bad a }
  let s := s.modTile t (fun x => { x with arr0 := tested 0 x.arr0, arr1 := tested 1 x.arr1 })
  let s := if bad 0 then logArrayOff t 0 s else s
  let s := if bad 1 then logArrayOff t 1 s else s
  let spad := b.spadFail.any (fun x => x.val == t)
  let tge := b.tgeFail.any (fun x => x.val == t)
  let out := (bad 0 && bad 1) || spad || tge
  let s := s.modDie (dieOfTile t) (fun d => { d with withdrawn := setBit d.withdrawn (t % 24) out })
  if !out then s
  else logWithdrawn t (if bad 0 && bad 1 then 0 else if spad then 1 else 2) s

/-- Pseudo-channels, arrays and tiles of a die tested (R57, R214, R394). -/
def testDie (b : Bringup) (d : Nat) (s : State) : State :=
  let s := forEach [3 * d, 3 * d + 1, 3 * d + 2] (fun st s =>
    let s := s.modStack st (fun x => { x with pcFail := failedPcs b st })
    forEach (bitsSet (failedPcs b st)) (fun pc s => logPcFailed st pc s) s) s
  forEach (tilesOfDie d) (testTile b) s

/-! ### Cold and warm device reset -/

/-- A compute die brought up (R19, R398): fenced still by a trip (R361), held for its stepping, which only an image can judge, held for its
hub edge, or in service. -/
def bringUpDie (b : Bringup) (comp : Option (Nat × List Nat)) (d : Nat) (s : State) : State :=
  let hold (cause : Nat) (s : State) : State :=
    logFence d cause (s.modDie d (fun x => { x with
      held := true, cause := BitVec.ofNat 4 cause, everUp := false, partnerUp := false, roles := BitVec.allOnes 48
      assigned := BitVec.allOnes 48 }))
  if (s.die d).fenced then
    s.modDie d (fun x => { x with everUp := false, partnerUp := false, roles := BitVec.allOnes 48, assigned := BitVec.allOnes 48 })
  else if comp.any (fun c => !stepFits (s.step (1 + d)).toNat c.1 c.2) then
    hold fenceRevision { s with glb := { s.glb with revHeld := setBit s.glb.revHeld (1 + d) true } }
  else if working (failing b d) (List.range 16) < 4 then hold fenceTraining s
  else
    let r := assignRoles s.glb.d2dActive.toNat (failing b d)
    testDie b d (s.modDie d (fun x => { x with roles := r, assigned := r, everUp := true, edgeOk := edgeTrains b d }))

/-- DEV_FEATURES and INSET (R399). -/
def fixFeatures (s : State) : State :=
  let up := dieList.filter (fun d => !s.fenced d)
  { s with glb := { s.glb with
      inset := up.foldl (fun m d => setBit m (1 + d) true) 1
      devFeat := up.foldl (fun w d => w &&& s.word (1 + d)) (s.word 0 &&& s.ctl.feats) } }

/-- The record of what brought the reset about (R348, R361, R386). -/
def logRestart (cause : Nat) (s : State) : State :=
  let s :=
    if cause = 3 ∨ cause = 4 then logRas { cls := .fatal, code := 0x50, unit := 0, info := cause } s
    else if cause = 8 then logRas { cls := .fatal, code := 0x52, unit := 0, info := s.hub.temp.toNat } s
    else s
  if s.aux.seqNew then
    logRas { cls := .fatal, code := 0x51, unit := unitNone, info := s.aux.fruSeqCause } s
  else s

/-- The module started from its blank state (R374, R375, R398, R407, R414); without an image its dies come up, and only the boot ROM runs
(LOG 156). -/
def bootModule (cause : Nat) (b : Bringup) (s : State) : State :=
  let s := { s with glb := { s.glb with resetting := none, lastCause := BitVec.ofNat 4 cause } }
  match bootSlot s with
  | none =>
    let s := if s.fuses.lcState = 5 then lifeWipe s else s
    let s := loadNet { s with glb := { s.glb with d2dNext := s.flash.d2dNext, d2dActive := s.flash.d2dNext } }
    let s := settlePartners (forEach dieList (bringUpDie b none) s)
    { s with
      glb := { s.glb with failed := true, devFeat := 0, inset := 0 }
      ctl := { s.ctl with feats := 0, digest := 0, noImage := true } }
  | some slot =>
    let s := loadImage slot (lifeWipe s)
    let h := slotHeader (if slot then s.flash.slotB else s.flash.slotA)
    let s := loadNet (loadBands { s with
      glb := { s.glb with d2dNext := s.flash.d2dNext, d2dActive := s.flash.d2dNext }
      ras := { s.ras with history := s.flash.logCopy }
      pwr := { s.pwr with lastSeq := BitVec.ofNat 3 s.aux.fruSeqCause, lastV := s.aux.seqUnack } })
    let s := forEach dieList (bringUpDie b (some (hCompMin h, hCompKnown h))) s
    let s := logRestart cause (fixFeatures (settlePartners s))
    let s := trace 0 1 (2 ^ 16 + cause) s
    { s with
      aux := { s.aux with cause := none, seqNew := false }
      glb := { s.glb with ready := true } }

/-- The last 64 records copied to flash before a reset that Zoilo starts (R390). -/
def copyLog (s : State) : State := { s with flash := { s.flash with logCopy := s.ras.history.take 64 } }

/-- A warm device reset (R374, R375). -/
def warmOp (cause : Nat) (b : Bringup) (s : State) : State :=
  let s := copyLog { s with flash := storeAll s.flash }
  let warms := satAdd s.glb.warms 1
  let t := blankState { s with pcie := s.freshPcie }
  bootModule cause b { t with glb := { t.glb with warms := warms } }

/-- The reset that has been requested (R374): a cold one, with the nonce drawn anew (R413), or the warm device reset by which Zoilo
answers the loss of the firmware reserve (R372). Writes on their way to flash are applied (R17, R375). -/
def coldOp (b : Bringup) (s : State) : State :=
  match s.glb.resetting with
  | none => if s.live && s.glb.warmDue then warmOp 10 b s else s
  | some cause =>
    if s.powered && s.pwr.refclk && !s.ctl.modRst then
      let s := (blankState { s with flash := storeAll s.flash }).took
      bootModule cause b { s with ctl := { s.ctl with nonce := Config.nonce s.free } }
    else s

/-- COLD_RESET (R374). -/
def execColdReset (b : Bringup) (s : State) : Host.Outcome State Fault Refusal := .next (coldOp b s)

/-! ### Die reset -/

/-- Whether an offset of BAR0 lies in the registers that a die reset returns to their Reset values (R375): its CDIEd block, its stacks,
THERM and TEL. -/
def dieRegs (d off : Nat) : Bool :=
  let within (base n : Nat) : Bool := decide (base ≤ off) && decide (off < base + n)
  within (0xA00000 + 0x100000 * d) 0x100000 || within (0x900000 + 0x30000 * d) 0x30000 || within (0x202010 + 0x10 * d) 0x10 ||
    within (0xE01100 + 0x100 * d) 0x100

/-- The stacks, near cache, scratchpads and registers of a die at their reset values (R374, R375, R385); the interleave and the
agitator's set-up stay. -/
def wipeDie (d : Nat) (s : State) : State :=
  let s := dropHalves (dieRegs d) s
  let own (pa : Nat) : Bool := dieOfStack (s.home pa).1 == d
  let s := { s with pool := { s.pool with
    hbm := Sparse.keep s.pool.hbm (fun pa => !own pa)
    poison := Sparse.keep s.pool.poison (fun k => !own (32 * k))
    ruins := s.pool.ruins.filter (fun r => match r with
      | .gen st _ _ => dieOfStack st != d
      | .repair st _ => dieOfStack st != d
      | .fill _ _ => true) } }
  let s := forEach [3 * d, 3 * d + 1, 3 * d + 2] (fun st s =>
    s.modStack st (fun x => { period := x.period, passPeriod := x.period, agEnable := x.agEnable, temp := x.temp, ref2x := x.ref2x })) s
  let s := forEach (tilesOfDie d) (fun t s => s.setTile t {}) s
  let hit (p : Nat) : Bool := dieOfObj p == d
  let s := { s with
    sync := { (keepWaits (fun w => !hit w.phys) s).sync with
      vals := Sparse.keep s.sync.vals (fun p => !hit p), sigs := s.sync.sigs.filter (fun g => !hit g.phys) }
    pwr := { s.pwr with pllLost :=
      [1 + d, 5 + d, 10 + d].foldl (fun m i => setBit m i false) s.pwr.pllLost } }
  s.modDie d (fun x =>
    { fenced := x.fenced, tripped := x.tripped, held := x.held, cause := x.cause, exposing := x.exposing, exposeFound := x.exposeFound
      roles := x.roles, assigned := x.assigned, everUp := x.everUp, partnerUp := false
      temp := x.temp, peak := x.temp, point := s.pwr.target })

/-- The roles that a die's working modules held, with those that did not train marked as not working. -/
def lostRoles (fail : List Nat) (x : Die) : BitVec 48 := fail.foldl (fun r m => setFld r (2 * m + 1) (2 * m) 3) x.assigned

/-- The roles of a die that trains again (R17, R385): those it held, or fresh ones where it held none. -/
def retrainRoles (b : Bringup) (d : Nat) (s : State) : State :=
  let fail := failing b d
  s.modDie d (fun x =>
    if x.everUp then
      { x with roles := lostRoles fail x, edgeOk := edgeTrains b d }
    else
      let r := assignRoles s.glb.d2dActive.toNat fail
      { x with roles := r, assigned := r, everUp := true, edgeOk := edgeTrains b d })

/-- A die left held by its die reset, for training or for its feature word: HELD shows in GLB_FENCE and GLB_DIEx_ID, the fence's first cause stays (R379, R385, R399). -/
def holdDie (d : Nat) (training : Bool) (s : State) : State :=
  { s.modDie d (fun x => { x with held := true, trainHeld := training }) with glb := { s.glb with revHeld := setBit s.glb.revHeld (1 + d) true } }

/-- A die reset (R385): refused while the die is hot or held for revision; it returns to service where its hub edge trains and its
feature word holds DEV_FEATURES (R399). -/
def dieResetOp (o : Origin) (b : Bringup) (d : Nat) (s : State) : State :=
  if s.glb.dieBusy.getLsbD d then logReg 0x200 (originReq o) s
  else if 95 ≤ (s.die d).temp.toNat then logReg 0x200 (originReq o) s
  else if s.glb.revHeld.getLsbD (1 + d) && !(s.die d).trainHeld then s
  else
    let s := if s.fenced d then s else fenceDie d fenceReset s
    let s := wipeDie d s
    if working (failing b d) (List.range 16) < 4 then
      holdDie d true (s.modDie d (fun x => { x with roles := lostRoles (failing b d) x }))
    else
      let s := retrainRoles b d s
      if s.word (1 + d) &&& s.glb.devFeat ≠ s.glb.devFeat then
        holdDie d false s
      else
        let s := testDie b d s
        let s := { s.modDie d (fun x => { x with fenced := false, tripped := false, held := false, cause := 0 }) with
          glb := { s.glb with revHeld := setBit s.glb.revHeld (1 + d) false } }
        trace (1 + d) 1 (2 ^ 17 + d) (settlePartner d s)

/-! ### Tile and context resets -/

/-- TILE_GO (R373, R376). -/
def tileResetOp (o : Origin) (t : Nat) (s : State) : State :=
  if s.glb.tileBusy.isSome || s.fenced (dieOfTile t) || s.withdrawn t || decide (96 ≤ t) then logReg 0x200 (originReq o) s
  else
    let s := { s with glb := { s.glb with tileBusy := some t } }
    let s := match s.runKernel t with
      | some k => if k.abort.isNone then abortKernel k.kid .aborted 0x30000 s else stopTile t s
      | none => s
    settleTileReset (trace 0 1 (2 ^ 18 + t) s)

/-- CTX_GO (R373, R378): during a preemption it waits. -/
def ctxResetOp (o : Origin) (c : Nat) (s : State) : State :=
  if s.glb.ctxBusy.isSome || (s.ctx c).state == .free then logReg 0x200 (originReq o) s
  else
    let s := trace 0 1 (2 ^ 19 + c) { s with glb := { s.glb with ctxBusy := some c } }
    if (s.ctx c).preempt.isSome then s.modCtx c (fun x => { x with resetWaits := true })
    else settleCtxReset (ctxResetNow c s)

/-! ### GLB_RESET -/

/-- Who may write GLB_RESET (R373). -/
def originReset : Origin → Bool
  | .pf0 => true
  | .zoilo _ => true
  | .core _ m => m
  | _ => false

/-- A write of GLB_RESET (R373): the widest request that it carries applies; COLD, WARM and DIE need the key.
Z3 runs die and tile resets (R400). -/
def resetWriteOp (o : Origin) (v : W64) (b : Bringup) (s : State) : State :=
  if !originReset o then logReg 0x200 (originReq o) s
  else
    let wide := bit v 0 || bit v 1 || fld v 7 4 != 0
    let key := fld v 31 24 == 0xA5
    let s := { s with glb := { s.glb with
      rstTile := BitVec.ofNat 7 (fld v 14 8)
      rstCtx := BitVec.ofNat 6 (fld v 21 16) } }
    let s := if wide && !key then logReg 0x200 (originReq o) s else s
    if key && bit v 0 then requestCold 1 (copyLog s)
    else if key && bit v 1 then warmOp 2 b s
    else if key && fld v 7 4 != 0 then
      if s.serviceDown 3 then s else forEach (dieList.filter (fun d => bit v (4 + d))) (dieResetOp o b) s
    else if bit v 15 then if s.serviceDown 3 then s else tileResetOp o (fld v 14 8) s
    else if bit v 22 then ctxResetOp o (fld v 21 16) s
    else s

/-- WARM (R375). -/
def execWarm (o : Origin) (v : W64) (b : Bringup) (s : State) : Host.Outcome State Fault Refusal :=
  .next (whenLive (resetWriteOp o v b) s)

/-- DIE (R385). -/
def execDieReset (o : Origin) (v : W64) (b : Bringup) (s : State) : Host.Outcome State Fault Refusal :=
  .next (whenLive (resetWriteOp o v b) s)

/-- TILE_GO (R376). -/
def execTileGo (o : Origin) (v : W64) (s : State) : Host.Outcome State Fault Refusal :=
  .next (whenLive (resetWriteOp o v .good) s)

/-- CTX_GO (R378). -/
def execCtxGo (o : Origin) (v : W64) (s : State) : Host.Outcome State Fault Refusal :=
  .next (whenLive (resetWriteOp o v .good) s)

end Sys2Proof.Machine
end

