-- ==== Sys2Proof/Machine/PoolCmds.lean ====
section
/-! DEFINITION. Commands of the pool (R197-R217): requests at the near cache, atomics and reductions, the agitator and the other
background work, failing pseudo-channels, error counters, traffic generators, the 1500 port and band changes. -/

namespace Sys2Proof.Machine

/-! ### Errors found by the code -/

/-- Readers of HBM_Ss_ERRADDR.SRC (R210). -/
def srcFill : Nat := 0
def srcAgitator : Nat := 1
def srcAdder : Nat := 2
def srcChecker : Nat := 3
def srcRepair : Nat := 4

/-- A corrected burst counted, recorded and logged; its 2 KiB block is to be read at once (R208, R210, R213), unless its reads are
scheduled already (LOG 175). -/
def hbmCorrected (st a src : Nat) (s : State) : State :=
  let s := s.modStack st (fun x =>
    let x := { x with ce := satAdd x.ce 1, ceEv := x.ceEv || satAdd x.ce 1 != x.ce }
    let x := if x.errValid && x.errUe then x
      else { x with errBurst := BitVec.ofNat 30 (a / 32), errUe := false, errSrc := BitVec.ofNat 3 src, errValid := true }
    if x.agDue.any (fun b => b / 64 == a / 2048) then x
    else { x with agDue := x.agDue ++ ((List.range 64).map (a / 2048 * 64 + ·)).filter (· != a / 32) })
  logRas { cls := .corrected, code := 0x10, unit := unitStack st, addr := a, info := src } s

/-- An uncorrectable burst poisoned, counted, recorded and logged (R209, R210). -/
def hbmUncorrectable (st a src : Nat) (s : State) : State :=
  let s := s.modStack st (fun x =>
    { x with ue := satAdd x.ue 1, ueEv := x.ueEv || satAdd x.ue 1 != x.ue, errBurst := BitVec.ofNat 30 (a / 32), errUe := true
             errSrc := BitVec.ofNat 3 src, errValid := true })
  let s := { s with pool := { s.pool with poison := KeySet.add s.pool.poison (s.paOfStack st a / 32) } }
  logRas { cls := .deferred, code := 0x11, unit := unitStack st, addr := a, info := src } s

/-- What a read of a burst of a stack finds (R208). -/
def hbmEvent (e : EccEvent) (st a src : Nat) (s : State) : State :=
  match e with
  | .none => s
  | .corrected => hbmCorrected st a src s
  | .uncorrectable => hbmUncorrectable st a src s

/-- What the code of a near cache finds in a line (R205, R393): an uncorrectable error poisons its 32 B sub-block. -/
def ncEvent (e : EccEvent) (d pa : Nat) (s : State) : State :=
  match e with
  | .none => s
  | .corrected => logRas { cls := .corrected, code := 0x13, unit := unitDie d, addr := pa } s
  | .uncorrectable =>
    logRas { cls := .deferred, code := 0x14, unit := unitDie d, addr := pa }
      { s with pool := { s.pool with poison := KeySet.add s.pool.poison (pa / 32) } }

/-- Whether a requester may reach a closed range (R193). -/
def mayClosed : Requester → Bool
  | .zoilo _ => true
  | _ => false

/-- Whether a requester's access to an HBM address is served at its home. -/
def served (r : Requester) (pa : Nat) (s : State) : Bool := atHome r pa s == .served

/-- A request of another agent at the home of a unit: a unit that its write snoop holds is released once it is performed (R245). -/
def release (pa : Nat) (s : State) : State := releaseUnit (pa / 256) s

/-! ### Requests -/

/-- A request at its home near cache (R202-R205): an error event of the line, or of the stack it is filled from, then the access. -/
def nearCacheOp (x : PoolAccess) (s : State) : State :=
  match paKind x.pa with
  | .hbm _ =>
    if paClosed x.pa && !mayClosed x.by_ then logClosed x.pa x.by_ s
    else
      let h := s.home x.pa
      let d := dieOfStack h.1
      let room := 256 - x.pa % 256
      let hit := (Sparse.find? (s.die d).nc (x.pa / 256)).isSome
      let fills := !x.write || decide (x.data.length < 256)
      let s := if !served x.by_ x.pa s then s
        else if hit then ncEvent x.ncErr d x.pa s
        else if fills then hbmEvent x.hbmErr h.1 h.2 srcFill s
        else s
      if x.write then release x.pa (poolWrite x.by_ x.cls x.pa (clean (x.data.take room)) s).2
      else (hbmRead x.by_ x.cls x.pa (min x.len room) s).2
  | .unassigned => logClosed x.pa x.by_ s
  | _ => s

/-- NEAR_CACHE_ACCESS (R202). -/
def execNearCacheAccess (x : PoolAccess) (s : State) : Host.Outcome State Fault Refusal :=
  .next (whenServed (nearCacheOp x) s)

/-- A word atomic on an aligned word of HBM (R207). -/
def wordAtomicOp (r : Requester) (pa : Nat) (op : AtomOp) (wide : Bool) (c b : Nat) (s : State) : State :=
  match paKind pa with
  | .hbm _ =>
    if paClosed pa && !mayClosed r then logClosed pa r s
    else if pa % (if wide then 8 else 4) ≠ 0 then s
    else release pa (poolAtom r op wide pa c b s).2
  | .unassigned => logClosed pa r s
  | _ => s

/-- WORD_ATOMIC (R207). -/
def execWordAtomic (r : Requester) (pa : Nat) (op : AtomOp) (wide : Bool) (cmp b : W64) (s : State) :
    Host.Outcome State Fault Refusal :=
  .next (whenServed (wordAtomicOp r pa op wide cmp.toNat b.toNat) s)

/-- Whether an operation exists in a format (R206). -/
def redValid (op : RedOp) (fmt : RedFmt) : Bool := op == .add || !redFmtFloat fmt

/-- A bulk reduction of one aligned 256 B unit (R206). -/
def bulkOp (r : Requester) (pa : Nat) (op : RedOp) (fmt : RedFmt) (data : List Byte) (bad : Bool) (e : EccEvent)
    (s : State) : State :=
  match paKind pa with
  | .hbm _ =>
    if paClosed pa && !mayClosed r then logClosed pa r s
    else if pa % 256 ≠ 0 ∨ data.length ≠ 256 ∨ redValid op fmt = false then s
    else
      let h := s.home pa
      let s := if served r pa s then hbmEvent e h.1 h.2 srcAdder s else s
      release pa (poolReduce r op fmt pa (data.map (fun b => (b, bad))) s).2
  | .unassigned => logClosed pa r s
  | _ => s

/-- BULK_REDUCTION (R206). -/
def execBulkReduction (r : Requester) (pa : Nat) (op : RedOp) (fmt : RedFmt) (data : List Byte) (poison : Bool)
    (err : EccEvent) (s : State) : Host.Outcome State Fault Refusal :=
  .next (whenServed (bulkOp r pa op fmt data poison err) s)

/-! ### Background work -/

/-- Bursts of a stack (R194, R213). -/
def stackBursts : Nat := 2 ^ 30

/-- The agitator one burst further, or at the end of its pass (R213): PASSES counts, a new PERIOD applies. -/
def agAdvance (n : Nat) (x : Stack) : Stack :=
  if x.agPos + n < stackBursts then { x with agPos := x.agPos + n }
  else { x with agPos := 0, passes := satAdd x.passes 1, passPeriod := x.period }

/-- Whether the unit of a stack address is dirty in the near cache. -/
def unitDirty (st a : Nat) (s : State) : Bool :=
  Sparse.find? (s.die (dieOfStack st)).nc (s.paOfStack st a / 256) == some true

/-- A burst that the agitator reads, unless its pseudo-channel has failed (R213, R214). -/
def agRead (st a : Nat) (e : EccEvent) (s : State) : State :=
  if s.pcFailed st (pcOf a) then s else hbmEvent e st a srcAgitator s

/-- The bursts of a unit taken off those that are due. -/
def unitDue (b : Nat) (l : List Nat) : List Nat := l.filter (fun x => x / 8 != b / 8)

/-- The next burst that is due for an immediate read (R213): the rest of its unit is skipped where that is dirty in the near cache. What it
finds schedules nothing new: its block is being read. -/
def agDueRead (st b : Nat) (rest : List Nat) (e : EccEvent) (s : State) : State :=
  let skip := unitDirty st (32 * b) s
  let rest := if skip then unitDue b rest else rest
  let more := rest.any (fun x => x / 8 == b / 8)
  let s := if skip then s else agRead st (32 * b) e s
  s.modStack st (fun y => { y with agDue := rest, agUnit := if more then some (b / 8) else none })

/-- The agitator reads the next burst of its pass, or one that is due (R213): corrected bursts are written back, uncorrectable
ones poisoned; a unit dirty in the near cache is skipped. With ENABLE = 0 it ends its current unit. -/
def agitatorOp (st : Nat) (e : EccEvent) (s : State) : State :=
  let x := s.stack st
  if s.fenced (dieOfStack st) then s
  else
    match (if x.agPos % 8 = 0 then x.agDue else []) with
    | b :: rest => if x.agEnable || x.agUnit == some (b / 8) then agDueRead st b rest e s else s
    | [] =>
      if !x.agEnable && x.agPos % 8 == 0 then s
      else
        let a := 32 * x.agPos
        if unitDirty st a s then s.setStack st (agAdvance (8 - x.agPos % 8) x)
        else agRead st a e (s.setStack st (agAdvance 1 x))

/-- AGITATOR_READ (R213). -/
def execAgitatorRead (s : StackId) (err : EccEvent) (σ : State) : Host.Outcome State Fault Refusal :=
  .next (whenLive (agitatorOp s.val err) σ)

/-- PHY_RECALIBRATION (R212): one channel of the round of 64 ms; requests wait. -/
def execPhyRecalibration (s : StackId) (ch : Fin 16) (σ : State) : Host.Outcome State Fault Refusal :=
  .next (whenLive (fun t =>
    if t.fenced (dieOfStack s.val) then t
    else t.modStack s.val (fun x =>
      let m := setBit x.recal ch.val true
      { x with recal := if m = BitVec.allOnes 16 then 0 else m })) σ)

/-- REFRESH_MANAGEMENT (R212): a command of the controller to the stack, which no register shows. -/
def execRefreshManagement (_s : StackId) (_pc : Fin 32) (_bank : Nat) (σ : State) : Host.Outcome State Fault Refusal :=
  .next (whenLive id σ)

/-- PC_FAILURE (R214). -/
def execPcFailure (s : StackId) (pc : Fin 32) (σ : State) : Host.Outcome State Fault Refusal :=
  .next (whenLive (fun t =>
    if t.fenced (dieOfStack s.val) || t.pcFailed s.val pc.val then t
    else logPcFailed s.val pc.val (t.modStack s.val (fun x => { x with pcFail := setBit x.pcFail pc.val true }))) σ)

/-! ### Registers of a stack -/

/-- BAR0 offset of a stack's window. -/
def hbmOff (st : Nat) : Nat := 0x900000 + 0x10000 * st

/-- A write of HBM_Ss_ECC (R210): the events are cleared, and with CLR the counts and ERRADDR. -/
def eccWriteOp (st : Nat) (v : W64) (s : State) : State :=
  s.modStack st (fun x =>
    let x := { x with ceEv := x.ceEv && !bit v 48, ueEv := x.ueEv && !bit v 49 }
    if bit v 50 then { x with ce := 0, ue := 0, errBurst := 0, errUe := false, errSrc := 0, errValid := false } else x)

/-- HBM_ECC_CLR (R210). -/
def execHbmEccClr (o : Origin) (s : StackId) (v : W64) (σ : State) : Host.Outcome State Fault Refusal :=
  .next (whenLive (fun t => if originFull o then eccWriteOp s.val v t else t) σ)

/-- BAR0 offset of a generator's CTL. -/
def tgenOff (st c : Nat) : Nat := hbmOff st + 0x1000 + 0x10 * c

/-- A generator of a stack replaced. -/
def State.setTgen (s : State) (st c : Nat) (g : Tgen) : State :=
  s.modStack st (fun x => { x with tgen := Sparse.write {} x.tgen c g })

/-- The number of a 256 B unit within its pseudo-channel (R195): each holds 2 KiB of every 64 KiB of stack address. -/
def pcUnit (a : Nat) : Nat := a / 65536 * 8 + a % 2048 / 256

/-- Whether a run writes a unit of its pseudo-channel (R215): every unit up to LEN in ascending order, none in a check; at random
addresses, or in a random mix, a free choice. -/
def tgenWrites (g : Tgen) (salt u : Nat) : Bool :=
  let inLen := g.len == 0 || decide (u < g.len.toNat)
  let chance := (Config.freeBits salt (2 ^ 42 + u)).getLsbD 0
  match g.mode.toNat with
  | 2 => false
  | 3 => (g.random || inLen) && chance
  | _ => if g.random then chance else inLen

/-- A run begins (R215): the data of the pseudo-channel is destroyed; a burst that the run writes loses its poison. -/
def tgenBegin (st c : Nat) (g : Tgen) (s : State) : State :=
  let salt := s.free
  let wiped (pa : Nat) : Bool := let h := s.home pa; h.1 == st && pcOf h.2 == c && tgenWrites g salt (pcUnit h.2)
  let g := { g with running := true, stopping := false, errors := 0, first := 0, firstv := false }
  let s := ruin (.gen st c salt) (s.setTgen st c g).took
  { s with pool := { s.pool with poison := Sparse.keep s.pool.poison (fun k => !wiped (32 * k)) } }

/-- A write of HBM_Ss_TGENc_CTL (R215): START and STOP only where the life-cycle state permits tests. -/
def tgenCtlOp (o : Origin) (st c : Nat) (v : W64) (s : State) : State :=
  if (bit v 0 || bit v 1) && !s.lcService then logReg (tgenOff st c) (originReq o) s
  else
    let g := s.tgen st c
    let f := { g with pattern := BitVec.ofNat 2 (fld v 3 2), size := BitVec.ofNat 2 (fld v 5 4), random := bit v 6
                      mode := BitVec.ofNat 2 (fld v 8 7), len := BitVec.ofNat 32 (fld v 63 32) }
    let f := if bit v 1 then { f with stopping := f.running } else f
    if bit v 0 && !bit v 1 && !g.running then tgenBegin st c f s else s.setTgen st c f

/-- TGEN_START (R215). -/
def execTgenStart (o : Origin) (s : StackId) (pc : Fin 32) (v : W64) (σ : State) : Host.Outcome State Fault Refusal :=
  .next (whenLive (fun t => if originFull o then tgenCtlOp o s.val pc.val v t else t) σ)

/-- TGEN_STOP (R215): the run ends with TGEN_DONE. -/
def execTgenStop (o : Origin) (s : StackId) (pc : Fin 32) (v : W64) (σ : State) : Host.Outcome State Fault Refusal :=
  .next (whenLive (fun t => if originFull o then tgenCtlOp o s.val pc.val v t else t) σ)

/-- What a reader of its own finds in bursts A[34:5] of a stack (R210). -/
def eccEvents (st src : Nat) (l : List (BitVec 30 × EccEvent)) (s : State) : State :=
  forEach l (fun e t => hbmEvent e.2 st (32 * e.1.toNat) src t) s

/-- TGEN_DONE (R215): the run ends, with what its checker counted, and with the errors that the code met in its bursts. -/
def execTgenDone (s : StackId) (pc : Fin 32) (errors : BitVec 16) (first : Option (BitVec 25)) (ecc : List (BitVec 30 × EccEvent))
    (σ : State) : Host.Outcome State Fault Refusal :=
  .next (whenLive (fun t =>
    let g := t.tgen s.val pc.val
    if g.running then
      (eccEvents s.val srcChecker (ecc.filter (fun e => pcOf (32 * e.1.toNat) == pc.val)) t).setTgen s.val pc.val { g with
        running := false, stopping := false, done := true, errors := errors, first := first.getD 0, firstv := first.isSome }
    else t) σ)

/-- A write of HBM_Ss_P1500 (R216). -/
def p1500Op (o : Origin) (st : Nat) (v : W32) (s : State) : State :=
  if !s.lcService then logReg (hbmOff st + 0x2000) (originReq o) s
  else
    s.modStack st (fun x =>
      let x := { x with p1500Done := x.p1500Done && !bit v 25 }
      if x.p1500Busy then x
      else { x with wir := BitVec.ofNat 8 (fld v 7 0), p1500Ch := BitVec.ofNat 4 (fld v 11 8)
                    p1500Len := BitVec.ofNat 11 (fld v 22 12), p1500Busy := bit v 23 })

/-- P1500_GO (R216). -/
def execP1500Go (o : Origin) (s : StackId) (v : W32) (σ : State) : Host.Outcome State Fault Refusal :=
  .next (whenLive (fun t => if originFull o then p1500Op o s.val v t else t) σ)

/-- The bits that a shift has captured, in place of the first LEN bits of the buffer: what they hold is the stack's (LOG 30). -/
def captured (salt len : Nat) (m : Mem) : Mem :=
  (List.range (ceilDiv len 8)).foldl (fun m i =>
    let new := (Config.freeBits salt (2 ^ 41 + i)).setWidth 8
    let keep : Byte := if len < 8 * (i + 1) then BitVec.ofNat 8 (256 - 2 ^ (len % 8)) else 0
    Mem.setByte m i ((Mem.byte m i &&& keep) ||| (new &&& ~~~keep))) m

/-- P1500_DONE (R216), with the errors that the code met in bursts that the access read: what waited for the stack may go on. -/
def execP1500Done (s : StackId) (ecc : List (BitVec 30 × EccEvent)) (σ : State) : Host.Outcome State Fault Refusal :=
  .next (whenLive (fun t =>
    if (t.stack s.val).p1500Busy then
      let salt := t.free
      (ruin (.repair s.val salt) ((eccEvents s.val srcRepair ecc t).modStack s.val (fun x => { x with
        p1500Busy := false, p1500Done := true, shift := captured salt x.p1500Len.toNat x.shift }))).took
    else t) σ)

/-! ### Interleave changes -/

/-- BAR0 offset of HBM_Ss_REGIONb. -/
def regionOff (st b : Nat) : Nat := hbmOff st + 0x100 + 4 * b

/-- The NEXT values of a band. -/
def State.bandNext (s : State) (b : Nat) : List (BitVec 2) := (List.range 12).map (fun h => (s.region h b).next)

/-- APPLY (R199): refused where the NEXT values fail R198 or the band is changing, else the change begins. -/
def applyOp (o : Origin) (st b : Nat) (s : State) : State :=
  let nxt := s.bandNext b
  if (Sparse.find? s.pool.change b).isSome || !bandValid b (nxt.map (·.toNat)) then
    logReg (regionOff st b) (originReq o) (s.setRegion st b { s.region st b with refused := true })
  else { s with pool := { s.pool with change := Sparse.insert s.pool.change b nxt } }

/-- A write of HBM_Ss_REGIONb (R199): NEXT first, kept in flash, then APPLY. -/
def regionWriteOp (o : Origin) (st b : Nat) (v : W32) (s : State) : State :=
  let r := s.region st b
  let r := { r with refused := r.refused && !bit v 10 }
  let takes := !regionRsv st b && fld v 1 0 != 3
  let s := s.setRegion st b (if takes then { r with next := BitVec.ofNat 2 (fld v 1 0) } else r)
  let s := if takes then { s with flash := { s.flash with
      stores := s.flash.stores ++ [.region (Fin.ofNat 12 st) (Fin.ofNat 32 b) (BitVec.ofNat 2 (fld v 1 0))] } } else s
  if bit v 8 then applyOp o st b s else s

/-- APPLY (R199). -/
def execApplyBand (o : Origin) (s : StackId) (b : Fin 32) (v : W32) (σ : State) : Host.Outcome State Fault Refusal :=
  .next (whenLive (fun t => if originFull o then regionWriteOp o s.val b.val v t else t) σ)

/-- The end of a change (R199): the affected regions hold zero, ACTIVE takes the checked values. -/
def bandDone (b : Nat) (s : State) : State :=
  match Sparse.find? s.pool.change b with
  | none => s
  | some nxt =>
    let hit := affectedRegions (s.bandActive b) (nxt.map (·.toNat))
    let inHit (pa : Nat) : Bool := pa / 2 ^ 30 / 12 == b && hit.contains (pa / 2 ^ 30 % 12)
    let s := { s with
      pool := { s.pool with
        hbm := Sparse.keep s.pool.hbm (fun pa => !inHit pa)
        poison := Sparse.keep s.pool.poison (fun k => !inHit (32 * k))
        change := Sparse.drop s.pool.change b }
      dies := Sparse.mapVals {} s.dies (fun d => { d with nc := Sparse.keep d.nc (fun l => !inHit (256 * l)) }) }
    let s := if s.pool.ruins.isEmpty then s else ruin (.fill b hit) s
    forEach (List.range 12) (fun st s => s.setRegion st b { s.region st b with active := nxt.getD st 0 }) s

/-- BAND_CHANGE_COMPLETE (R199). -/
def execBandChangeComplete (b : Fin 32) (s : State) : Host.Outcome State Fault Refusal := .next (whenLive (bandDone b.val) s)

end Sys2Proof.Machine
end

