-- ==== Sys2Proof/Machine/CoreCmds.lean ====
section
/-! DEFINITION. Commands of the server cores, their caches and the host's own accesses (R236-R251, R381): misses, atomics,
evictions, cache-block operations, engine snoops, interrupt files, BAR2 and CXL snoops. -/

namespace Sys2Proof.Machine

/-! ### Harts -/

/-- What the manual fixes of a server core (R236, R240); its instructions are those of the RISC-V profiles it names. -/
structure HartInfo where
  mhartid : Nat
  vlen    : Nat := 256
  asidLen : Nat := 16
  vmidLen : Nat := 14
  geilen  : Nat := 2
  block   : Nat := 64             -- bytes of a cache block
  l1i     : Nat := 65536
  l1d     : Nat := 65536
  l2      : Nat := 2097152
deriving DecidableEq, Repr

/-- Server core Kn as a hart. -/
def hartOf (k : CoreId) : HartInfo := { mhartid := k.val }

/-- The hart's registers that the manual names. -/
def State.hart (s : State) (k : Nat) : Hart := Sparse.read {} s.cores.harts k

/-- The state with a hart changed. -/
def State.modHart (s : State) (k : Nat) (f : Hart → Hart) : State :=
  { s with cores := { s.cores with harts := Sparse.write {} s.cores.harts k (f (s.hart k)) } }

/-- The time CSR and mtime (R237). -/
def State.time (s : State) : W64 := s.hub.tel

/-- Whether an Sstc comparison with a value of stimecmp or vstimecmp is pending (R237). -/
def State.timerPending (s : State) (cmp : W64) : Bool := decide (cmp.toNat ≤ s.time.toNat)

/-! ### Obtaining a line -/

/-- POISON_USED (R393): a core consumes poisoned data (R381, R388). -/
def logPoisonUsed (k pa : Nat) (s : State) : State :=
  logRas { cls := .contained, code := 0x20, unit := unitCore k, addr := pa, info := statusCode .poison } s

/-- A line's data from the near cache (R243); none where the home is lost. -/
def lineFromHome (k line : Nat) (s : State) : Option CLine × State :=
  let r := hbmRead (.core (Fin.ofNat 48 k)) .allocating (64 * line) 64 s
  if r.1.met.dies ≠ 0 then (none, r.2)
  else (some ⟨false, plain r.1.data, anyPoison r.1.data⟩, r.2)

/-- A host line obtained through the host-line cache (R248): RdShared for a load; RdOwn for a store, or ItoMWr for one of the whole line. -/
def lineFromHost (line : Nat) (own whole : Bool) (s : State) : Option CLine × State :=
  if s.hostUnreachable 0 then (none, s)
  else
    let data := hostLineData line s
    let bad := hostLinePoison line s
    let s := if own then ownRequest line whole s else if (Sparse.find? s.cores.hlc line).isSome then s else cxlReq .rdShared line [] false s
    let s := match Sparse.find? s.cores.hlc line with
      | some h => if own && h.st == .s then putHostLine line ⟨.e, h.data, h.poison⟩ s else s
      | none => putHostLine line ⟨if own then .e else .s, data, false⟩ s
    (some ⟨false, data, bad⟩, s)

/-- Whether a line is of host memory. -/
def isHostLine (line : Nat) : Bool :=
  match paKind (64 * line) with
  | .host _ => true
  | _ => false

/-- Whether a line is cacheable main memory (R238): visible HBM, or host memory with FEAT_CXL_CACHE accepted. -/
def cacheable (line : Nat) (s : State) : Bool :=
  match paKind (64 * line) with
  | .hbm _ => !paClosed (64 * line)
  | .host _ => s.cxlAccepted
  | _ => false

/-- The data of a line no cache of the cores holds; the miss counted (R396). -/
def lineFromBelow (k line : Nat) (own whole : Bool) (s : State) : Option CLine × State :=
  let s := pmcAdd 0 2 1 s
  match paKind (64 * line) with
  | .host _ => lineFromHost line own whole s
  | _ => lineFromHome k line s

/-! ### Room in the caches -/

/-- Lines of a core's L2 and of the L3 (R23, R236). -/
def l2Lines : Nat := 32768
def l3Lines : Nat := 2097152

/-- A line leaves the L3 (R243): an M line is written back. -/
def l3EvictOp (line : Nat) (s : State) : State :=
  match s.l3 line with
  | none => s
  | some c =>
    let s := dropL3 line s
    if c.modified then writeBack none line c s else s

/-- A line moved to the L3, in place of another where it is full (LOG 136). -/
def moveToL3 (line : Nat) (c : CLine) (s : State) : State :=
  let s := if (s.l3 line).isNone && decide (l3Lines ≤ s.cores.l3.length) then
      match s.cores.l3[Config.victim s.free % l3Lines]? with
      | some e => (l3EvictOp e.1 s).took
      | none => s
    else s
  putL3 line c s

/-- A core's reservation set or cleared. -/
def setResv (k : Nat) (line : Option Nat) (s : State) : State :=
  { s with cores := { s.cores with resv := match line with
      | some l => Sparse.insert s.cores.resv k l
      | none => Sparse.drop s.cores.resv k } }

/-- A line leaves a core's L2 (R243): to the L3; a host line to the host-line cache (R248). A reservation on it ends. -/
def l2EvictOp (k line : Nat) (s : State) : State :=
  match s.l2 k line with
  | none => s
  | some c =>
    let s := dropL2 k line s
    let s := if Sparse.find? s.cores.resv k == some line then setResv k none s else s
    match paKind (64 * line) with
    | .host _ => if c.modified then writeBack (some k) line c s else s
    | _ => moveToL3 line c s

/-- A line installed in a core's L2, in place of another where it is full (LOG 136). -/
def installL2 (k line : Nat) (c : CLine) (s : State) : State :=
  let mine := s.cores.l2.filter (fun e => e.1 % 48 == k)
  let s := if (s.l2 k line).isNone && decide (l2Lines ≤ mine.length) then
      match mine[Config.victim s.free % l2Lines]? with
      | some e => (l2EvictOp k (e.1 / 48) s).took
      | none => s
    else s
  putL2 k line c s

/-! ### Lines obtained -/

/-- A line obtained in S (R243): from the M owner, which writes it back, else from the L3, else from below. -/
def obtainS (k line : Nat) (s : State) : Option CLine × State :=
  let r : Option CLine × State := match ownerOf s line with
    | some (w, c) => (some c, demote line (writeBack w line c s))
    | none => match s.l3 line with
      | some c => (some c, s)
      | none => lineFromBelow k line false false s
  match r.1 with
  | some c => (some c, installL2 k line { c with modified := false } r.2)
  | none => (none, r.2)

/-- A line obtained in M (R243): from the M owner without a write-back, else from its own or the L3's copy, else from below; every
other copy is invalidated. `whole` where the whole line is to be stored. -/
def obtainM (k line : Nat) (whole : Bool) (s : State) : Option CLine × State :=
  let r : Option CLine × State :=
    match ownerOf s line with
    | some (_, c) => (some c, s)
    | none => match s.l2 k line with
      | some c => (some c, if isHostLine line then (lineFromHost line true whole s).2 else s)
      | none => match s.l3 line with
        | some c => (some c, s)
        | none => lineFromBelow k line true whole s
  match r.1 with
  | some c => (some c, installL2 k line { c with modified := true } (invalidateBut (some k) line r.2))
  | none => (none, r.2)

/-! ### Faults of cores -/

/-- Accesses of a core (R193, R381). -/
inductive CoreAcc where
  | load | store | amo
deriving DecidableEq, Repr

/-- The access fault of a core's instruction. -/
def accessFault (k pa : Nat) (s : State) : State := s.emit (.accessFault (Fin.ofNat 48 k) pa)

/-- An access of a core that its target refuses: a closed range faults and is logged (R193); a lost home is logged, and faults but for a
store (R381); unreachable host memory faults (R305), and so does an atomic on memory that takes none (R238, LOG 145). -/
def coreFault (a : CoreAcc) (k pa : Nat) (s : State) : State :=
  let r : Requester := .core (Fin.ofNat 48 k)
  let lost (s : State) : State := if a = .store then s else accessFault k pa s
  if paClosed pa then accessFault k pa (logClosed pa r s)
  else
    match paKind pa with
    | .hbm _ => lost (logDieAccess r pa s)
    | .spad t _ => if s.fenced (dieOfTile t) then lost (logDieAccess r pa s) else accessFault k pa s
    | _ => accessFault k pa s

/-! ### Loads and stores -/

/-- A load of memory that the core does not cache (R238): refused in a closed range, at a lost scratchpad and at unreachable host
memory; from register space, of a width or an alignment that R7 does not allow, discarded and logged; else it changes nothing. -/
def plainLoad (k pa n : Nat) (s : State) : State :=
  match paKind pa with
  | .spad t _ => if s.fenced (dieOfTile t) then coreFault .load k pa s else s
  | .host _ => if s.hostUnreachable 0 then coreFault .load k pa s else s
  | .regs o => if (n = 4 ∨ n = 8) ∧ o % n = 0 then s else logReg o (.core (Fin.ofNat 48 k)) s
  | _ => coreFault .load k pa s

/-- A load that misses (R243), with the error found in the copy that supplies the line; a poisoned line is installed so, and its load
faults (R388). -/
def coreLoadOp (k pa n : Nat) (err : EccEvent) (s : State) : State :=
  let line := pa / 64
  if lineHeld s line || (s.l2 k line).isSome then s
  else if !cacheable line s then plainLoad k pa n s
  else
    let r := obtainS k line (supplyFlaw line err s)
    match r.1 with
    | some c => if c.poison then logPoisonUsed k pa r.2 else r.2
    | none => coreFault .load k pa r.2

/-! ### What a core does in itself -/

/-- What a write leaves in satp or vsatp (R236): a MODE other than Bare, Sv39 and Sv48 leaves the register as it was. -/
def satpWrite (old v : W64) : W64 := if fld v 63 60 = 0 ∨ fld v 63 60 = 8 ∨ fld v 63 60 = 9 then v else old

/-- What a write leaves in hgatp (R236): Bare, Sv39x4 and Sv48x4, a VMID of 14 bits, a root table of 16 KiB. -/
def hgatpWrite (old v : W64) : W64 :=
  if fld v 63 60 = 0 ∨ fld v 63 60 = 8 ∨ fld v 63 60 = 9 then setFld (setFld v 59 58 0) 1 0 0 else old

/-- Lines of a core's L1 instruction cache (R236). -/
def l1iLines : Nat := 1024

/-- The fetch of a line of instructions (R236): from the L1 instruction cache, which is not coherent, else through the L2; a full cache
gives up the line added first (LOG 136). -/
def coreFetchOp (k line : Nat) (s : State) : State :=
  match (s.hart k).l1i.find? (fun e => e.1 == line) with
  | some e => s.emit (.coreFetch (Fin.ofNat 48 k) e.2 false)
  | none =>
    if lineHeld s line then s
    else if !cacheable line s then coreFault .load k (64 * line) s
    else
      let r := match s.l2 k line with
        | some c => (some c, s)
        | none => obtainS k line s
      match r.1 with
      | none => coreFault .load k (64 * line) r.2
      | some c =>
        if c.poison then (logPoisonUsed k (64 * line) r.2).emit (.coreFetch (Fin.ofNat 48 k) c.data true)
        else (r.2.modHart k (fun h => { h with l1i := ((line, c.data) :: h.l1i).take l1iLines })).emit
          (.coreFetch (Fin.ofNat 48 k) c.data false)

/-- What the instructions of a core do in the core itself (R236, R237). -/
def coreActOp (k : Nat) (a : CoreAct) (s : State) : State :=
  match a with
  | .privilege l v =>
    if l = 2 ∨ (l = 3 ∧ v) then s else s.modHart k (fun h => { h with priv := l, virt := v })
  | .satp v => s.modHart k (fun h => { h with satp := satpWrite h.satp v })
  | .vsatp v => s.modHart k (fun h => { h with vsatp := satpWrite h.vsatp v })
  | .hgatp v => s.modHart k (fun h => { h with hgatp := hgatpWrite h.hgatp v })
  | .stimecmp v => s.modHart k (fun h => { h with stimecmp := v })
  | .vstimecmp v => s.modHart k (fun h => { h with vstimecmp := v })
  | .readTime => s.emit (.coreTime (Fin.ofNat 48 k) s.time)
  | .readTimers => s.emit (.coreTimers (Fin.ofNat 48 k) (s.timerPending (s.hart k).stimecmp) (s.timerPending (s.hart k).vstimecmp))
  | .fetch line => coreFetchOp k line s
  | .fenceI => s.modHart k (fun h => { h with l1i := [] })

/-- What a core did before a load, and the errors found in its L1 caches (R388): a load that uses a line found uncorrectable faults. -/
def coreFirst (k : Nat) (a : CoreLoad) (s : State) : State :=
  let s := forEach a.acts (coreActOp k) s
  let s := if a.l1i then l1iFlaw k s else s
  match a.l1d with
  | none => s
  | some (line, err) =>
    let hit := line == a.pa / 64 && (s.l2 k line).isSome && err == .uncorrectable
    let s := l1dFlaw k line err s
    if hit then logPoisonUsed k a.pa s else s

/-- CORE_LOAD_MISS (R243). -/
def execCoreLoadMiss (k : CoreId) (a : CoreLoad) (hw : List HostByte) (err : EccEvent) (s : State) :
    Host.Outcome State Fault Refusal :=
  .next (whenServed (fun s => coreLoadOp k.val a.pa a.bytes err (coreFirst k.val a (hostStores hw s))) s)

/-- A line with bytes stored in it: a store of the whole line clears its poison. -/
def CLine.store (c : CLine) (off : Nat) (data : List Byte) : CLine :=
  { c with data := patch c.data off data, poison := c.poison && decide (data.length < 64), modified := true }

/-- A store that misses, or an upgrade (R243), within one line; uncached memory is written at once (R238). An access to register space
is a row of its own; one of another width or alignment is discarded and logged here (R7). -/
def coreStoreOp (k pa : Nat) (data : List Byte) (s : State) : State :=
  let line := pa / 64
  let off := pa % 64
  if lineHeld s line ∨ data.length = 0 then s
  else if (match paKind pa with | .regs o => !((data.length == 4 || data.length == 8) && o % data.length == 0) | _ => false) then
    logReg (pa - regSpace) (.core (Fin.ofNat 48 k)) s
  else if 64 < off + data.length then s
  else if cacheable line s then
    let r := obtainM k line (data.length == 64) s
    match r.1 with
    | some c => putL2 k line (c.store off data) r.2
    | none => coreFault .store k pa r.2
  else
    match paKind pa with
    | .host a => let w := hostWrite 0 false a (clean data) s; if w.1.unreach then coreFault .store k pa w.2 else w.2
    | .spad t o =>
      if data.length ≤ 8 then
        let w := spadWrite (.core (Fin.ofNat 48 k)) t o (clean data) s
        if w.1.dies = 0 then w.2 else coreFault .store k pa w.2
      else s
    | .regs _ => s
    | _ => coreFault .store k pa s

/-- CORE_STORE_MISS (R243). -/
def execCoreStoreMiss (k : CoreId) (pa : Nat) (data : List Byte) (hw : List HostByte) (s : State) :
    Host.Outcome State Fault Refusal :=
  .next (whenServed (fun s => coreStoreOp k.val pa data (hostStores hw s)) s)

/-- An AMO (R239): to HBM at the near cache, no core keeping a copy; to a cacheable host line in the core's L2. -/
def coreAmoOp (k pa : Nat) (op : AtomOp) (wide : Bool) (c b : Nat) (s : State) : State :=
  let line := pa / 64
  let n := if wide then 8 else 4
  if lineHeld s line ∨ pa % n ≠ 0 then s
  else if !cacheable line s then coreFault .amo k pa s
  else
    match paKind pa with
    | .hbm _ =>
      let r := poolAtom (.core (Fin.ofNat 48 k)) op wide pa c b (snoopWriteLine line s)
      if r.1.met.dies ≠ 0 then coreFault .amo k pa r.2
      else if r.1.met.poison then logPoisonUsed k pa r.2 else r.2
    | _ =>
      let r := obtainM k line false s
      match r.1 with
      | some x =>
        if x.poison then logPoisonUsed k pa r.2
        else
        let old := leAt x.data (pa % 64) n
        putL2 k line (x.store (pa % 64) (toBytes (atomNew op (8 * n) old c b) n)) r.2
      | none => coreFault .amo k pa r.2

/-- CORE_AMO (R239). -/
def execCoreAmo (k : CoreId) (pa : Nat) (op : AtomOp) (wide : Bool) (cmp b : W64) (s : State) :
    Host.Outcome State Fault Refusal :=
  .next (whenServed (coreAmoOp k.val pa op wide cmp.toNat b.toNat) s)

/-- LR and SC (R239): LR takes the line in M and reserves it; SC stores where the reservation and the line are still held. -/
def lrScOp (k pa : Nat) (sc : Option (List Byte)) (s : State) : State :=
  let line := pa / 64
  if lineHeld s line then s
  else if !cacheable line s then coreFault .amo k pa s
  else
    match sc with
    | none =>
      let r := obtainM k line false s
      match r.1 with
      | some c => setResv k (some line) (if c.poison then logPoisonUsed k pa r.2 else r.2)
      | none => coreFault .load k pa r.2
    | some data =>
      let held := Sparse.find? s.cores.resv k == some line
      match s.l2 k line with
      | some c =>
        if held && c.modified && decide (pa % 64 + data.length ≤ 64) then
          setResv k none (putL2 k line (c.store (pa % 64) data) s)
        else setResv k none s
      | none => setResv k none s

/-- LR_SC (R239). -/
def execLrSc (k : CoreId) (pa : Nat) (sc : Option (List Byte)) (s : State) : Host.Outcome State Fault Refusal :=
  .next (whenServed (lrScOp k.val pa sc) s)

/-! ### Evictions and cache-block operations -/

/-- L2_EVICTION (R243). -/
def execL2Eviction (k : CoreId) (line : Nat) (err : EccEvent) (s : State) : Host.Outcome State Fault Refusal :=
  .next (whenServed (fun s => l2EvictOp k.val line (l2Flaw k.val line err s)) s)

/-- L3_EVICTION (R243). -/
def execL3Eviction (line : Nat) (err : EccEvent) (s : State) : Host.Outcome State Fault Refusal :=
  .next (whenServed (fun s => l3EvictOp line (l3Flaw line err s)) s)

/-- A cache-block operation on a line (R243), once its ordering point serves it. -/
def cboOp (f : Nat → State → State) (k pa : Nat) (s : State) : State :=
  if lineHeld s (pa / 64) then s
  else if cacheable (pa / 64) s then f (pa / 64) s
  else if paClosed pa then coreFault .store k pa s else s

/-- CBO_CLEAN (R243). -/
def execCboClean (k : CoreId) (pa : Nat) (s : State) : Host.Outcome State Fault Refusal :=
  .next (whenServed (cboOp snoopReadLine k.val pa) s)

/-- CBO_FLUSH (R243). -/
def execCboFlush (k : CoreId) (pa : Nat) (s : State) : Host.Outcome State Fault Refusal :=
  .next (whenServed (cboOp snoopWriteLine k.val pa) s)

/-- CBO_INVAL (R236): as CBO.FLUSH. -/
def execCboInval (k : CoreId) (pa : Nat) (s : State) : Host.Outcome State Fault Refusal :=
  .next (whenServed (cboOp snoopWriteLine k.val pa) s)

/-- Whether the home of a line is lost, or the host that holds it unreachable. -/
def lineLost (line : Nat) (s : State) : Bool :=
  if isHostLine line then s.hostUnreachable 0 else s.fenced (dieOfStack (s.home (64 * line)).1)

/-- CBO.ZERO of a line (R243): M, zeroed, every other copy invalid; the store is discarded where the home is lost (R381). -/
def zeroLine (k line : Nat) (s : State) : State :=
  if lineLost line s then coreFault .store k (64 * line) s
  else
    let s := if isHostLine line then (lineFromHost line true true s).2 else s
    installL2 k line ⟨true, List.replicate 64 0, false⟩ (invalidateBut (some k) line s)

/-- CBO_ZERO (R243). -/
def execCboZero (k : CoreId) (pa : Nat) (s : State) : Host.Outcome State Fault Refusal :=
  .next (whenServed (cboOp (zeroLine k.val) k.val pa) s)

/-! ### Engine snoops -/

/-- Whether a unit is HBM that the cores may cache. -/
def unitCached (u : Nat) : Bool := hbmVisible (256 * u)

/-- ENGINE_READ_SNOOP (R245). -/
def execEngineReadSnoop (u : Nat) (s : State) : Host.Outcome State Fault Refusal :=
  .next (whenServed (fun s => if unitCached u then snoopRead u s else s) s)

/-- An engine's write snoop (R245): the ordering points hold the unit until the write is performed. -/
def writeSnoopOp (u : Nat) (s : State) : State :=
  let s := snoopWrite u s
  { s with cores := { s.cores with holds := s.cores.holds.filter (· != u) ++ [u] } }

/-- ENGINE_WRITE_SNOOP (R245). -/
def execEngineWriteSnoop (u : Nat) (s : State) : Host.Outcome State Fault Refusal :=
  .next (whenServed (fun s => if unitCached u then writeSnoopOp u s else s) s)

/-! ### Interrupt files -/

/-- Page of an interrupt file (R240). -/
def imsicOff (k : Nat) : ImsicFile → Nat
  | .m => 0x640000 + 0x1000 * k
  | .s => 0x670000 + 0x3000 * k
  | .guest1 => 0x671000 + 0x3000 * k
  | .guest2 => 0x672000 + 0x3000 * k

/-- Key of an interrupt file. -/
def imsicKey (k : Nat) : ImsicFile → Nat
  | .m => 4 * k | .s => 4 * k + 1 | .guest1 => 4 * k + 2 | .guest2 => 4 * k + 3

/-- Who may write a file (R240). -/
def imsicMay (o : Origin) (m : Bool) : Bool :=
  match o with
  | .core _ mm => !m || mm
  | .zoilo _ => m
  | .tile _ => !m
  | .pf0 => !m
  | _ => false

/-- The write of an identity to a file's seteipnum_le (R240). -/
def imsicOp (o : Origin) (off key ident : Nat) (s : State) : State :=
  if imsicMay o (key % 4 == 0) then imsicSet key ident s else logReg off (originReq o) s

/-- IMSIC_WRITE (R240). -/
def execImsicWrite (o : Origin) (k : CoreId) (file : ImsicFile) (ident : W32) (s : State) :
    Host.Outcome State Fault Refusal :=
  .next (whenLive (imsicOp o (imsicOff k.val file) (imsicKey k.val file) ident.toNat) s)

/-! ### BAR2 -/

/-- One piece of a BAR2 read (R193, R250, R381): closed ranges read all ones. -/
def bar2Piece (off n : Nat) (s : State) : ReadRes × State :=
  if hbmVisible off then hbmRead (.func 0) .allocating off n s
  else (⟨clean (List.replicate n 0xFF), {}⟩, logClosed off (.func 0) s)

/-- HOST_BAR2_READ (R250): BAR2 offset x is PA x, within its size (R272); a lost or poisoned datum makes the completion a poisoned one. -/
def execHostBar2Read (off len : Nat) (s : State) : Host.Outcome State Fault Refusal :=
  .next (whenServed (fun s =>
    if s.pcie.linkUp && decide (off + len ≤ s.pcie.bar2Bytes) then
      let r := readPieces bar2Piece (unitPieces off len) (pmcAdd 0 6 1 s)
      (capture 0 off (plain r.1.data) r.2).emit (.hostRead (plain r.1.data) (r.1.met.poison || r.1.met.dies != 0))
    else s) s)

/-- A BAR2 write (R251): piece by piece at the home; closed and lost ranges discard it. -/
def bar2Write (off : Nat) (data : List Byte) (s : State) : State :=
  forEach (unitPieces off data.length) (fun p s =>
    if hbmVisible p.1 then (poolWrite (.func 0) .allocating p.1 (clean ((data.drop (p.1 - off)).take p.2)) s).2
    else logClosed p.1 (.func 0) s) s

/-- HOST_BAR2_WRITE (R251). -/
def execHostBar2Write (off : Nat) (data : List Byte) (s : State) : Host.Outcome State Fault Refusal :=
  .next (whenServed (fun s => if s.pcie.linkUp && decide (off + data.length ≤ s.pcie.bar2Bytes) then capture 0 off data (bar2Write off data s) else s) s)

/-! ### Host snoops -/

/-- Whether host snoops reach the host-line cache: a link in CXL mode and a host line. -/
def hostSnoops (line : Nat) (s : State) : Bool :=
  s.pcie.linkUp && s.pcie.cxl && (match paKind (64 * line) with | .host _ => true | _ => false)

/-- SnpInv (R248): core copies invalidated, dirty data returned, the line Invalid. -/
def snpInvOp (line : Nat) (s : State) : State :=
  if !hostSnoops line s then s
  else
    let s := snoopWriteLine line s
    match Sparse.find? s.cores.hlc line with
    | none => s.emit (.snoop [] false false)
    | some h =>
      let s := { s with cores := { s.cores with hlc := Sparse.drop s.cores.hlc line } }
      if h.st = .m then
        { s with hostMem := Mem.setBytes s.hostMem (hostLineAddr line) h.data }.emit (.snoop h.data true h.poison)
      else s.emit (.snoop [] false false)

/-- SNP_INV (R248). -/
def execSnpInv (line : Nat) (s : State) : Host.Outcome State Fault Refusal := .next (whenServed (snpInvOp line) s)

/-- SnpData (R248): an M core copy written back to the cache, the cores and the line Shared. -/
def snpDataOp (line : Nat) (s : State) : State :=
  if !hostSnoops line s then s
  else
    let s := snoopReadLine line s
    match Sparse.find? s.cores.hlc line with
    | none => s.emit (.snoop [] false false)
    | some h =>
      let s := { s with cores := { s.cores with hlc := Sparse.insert s.cores.hlc line ⟨.s, h.data, h.poison⟩ } }
      let s := if h.st = .m then { s with hostMem := Mem.setBytes s.hostMem (hostLineAddr line) h.data } else s
      s.emit (.snoop h.data (h.st == .m) h.poison)

/-- SNP_DATA (R248). -/
def execSnpData (line : Nat) (s : State) : Host.Outcome State Fault Refusal := .next (whenServed (snpDataOp line) s)

/-- SnpCur (R248): the current data, a core's Modified copy included; no state changes. -/
def snpCurOp (line : Nat) (s : State) : State :=
  if !hostSnoops line s then s
  else
    match cachedData s line with
    | some c => s.emit (.snoop c.data false c.poison)
    | none =>
      match Sparse.find? s.cores.hlc line with
      | some h => s.emit (.snoop h.data false h.poison)
      | none => s.emit (.snoop [] false false)

/-- SNP_CUR (R248). -/
def execSnpCur (line : Nat) (s : State) : Host.Outcome State Fault Refusal := .next (whenLive (snpCurOp line) s)

/-- HOST_LINE_EVICTION (R248). -/
def execHostLineEviction (line : Nat) (err : EccEvent) (s : State) : Host.Outcome State Fault Refusal :=
  .next (whenServed (fun s => if (Sparse.find? s.cores.hlc line).isSome then evictHostLine line (hostLineFlaw line err s) else s) s)

end Sys2Proof.Machine
end

