-- ==== Sys2Proof/Machine/Mgmt.lean ====
section
/-! DEFINITION. The control complex (R400-R418): watchdogs, flash, telemetry, the negative, management messages, attestation,
firmware, the life cycle, and the JTAG port (R432). -/

namespace Sys2Proof.Machine

/-! ### Services and flash -/

/-- The service of a control core (R400): Z0 and Z1 run one. -/
def serviceOf (z : Nat) : Nat := if z = 1 then 0 else z

/-- The cores of a service. -/
def coresOf (v : Nat) : List Nat := if v = 0 then [0, 1] else [v]

/-- Restarts of a service in the second that ends now (R401): 100,000,000 TEL counts. -/
def recentRestarts (v : Nat) (s : State) : Nat :=
  (s.ctl.restarts.filter (fun e => serviceOf e.1 == v && decide ((s.hub.tel - e.2).toNat < 100000000))).length

/-- A service held down: its cores do not run it again before a cold or warm device reset (R401). -/
def holdService (v : Nat) (s : State) : State :=
  { s with ctl := { s.ctl with down := (coresOf v).foldl (fun m z => setBit m z true) s.ctl.down } }

/-- The service of a core restarted by Z7 (R401), and recorded on H; the third restart within 1 s holds it down. While Z7 is held down
nothing restarts it (LOG 130). The security service reserves a new block of signature indices as it starts (R410). -/
def watchdogOp (z : Nat) (s : State) : State :=
  if s.serviceDown z then s
  else if s.serviceDown 7 then holdService (serviceOf z) s
  else
    let s := { s with ctl := { s.ctl with
      restarts := (z, s.hub.tel) :: s.ctl.restarts, sigIndex := if z = 6 then none else s.ctl.sigIndex } }
    let s := if s.ctl.negFrozen then s else { s with hub := { s.hub with
      trace := (TraceRec.mk 8 s.hub.tel (BitVec.ofNat 192 z) :: s.hub.trace).take (traceCap 0), wrptr := s.hub.wrptr + 1 } }
    if 3 ≤ recentRestarts (serviceOf z) s then holdService (serviceOf z) s else s

/-- What befalls a control core (R388, R401): a corrected error of its memory is recorded; an uncorrectable one is answered as an expired
watchdog is, or, without a copy of the service in the firmware reserve, by a warm device reset. -/
def serviceOp (z : Nat) (e : ServiceStop) (s : State) : State :=
  match e with
  | .watchdog => watchdogOp z s
  | .corrected => logSramCe (unitZoilo z) 11 s
  | .uncorrectable true => watchdogOp z s
  | .uncorrectable false => { s with glb := { s.glb with warmDue := true } }

/-- SERVICE_WATCHDOG_EXPIRY (R388, R401). -/
def execServiceWatchdogExpiry (z : ServiceEvent) (s : State) : Host.Outcome State Fault Refusal :=
  .next (whenLive (serviceOp z.core.val z.event) s)

/-- The oldest write that waits for flash stored (R375), by Z7 (R400). -/
def storeNext (s : State) : State :=
  if s.serviceDown 7 then s
  else
    match s.flash.stores with
    | [] => s
    | w :: rest => { s with flash := { storeFlash w s.flash with stores := rest } }

/-- NEXT_FLASH_STORE (R375). -/
def execNextFlashStore (s : State) : Host.Outcome State Fault Refusal := .next (whenLive storeNext s)

/-! ### Health and telemetry -/

/-- Whether a die carries traffic, x = 0 H, 1-4 C0-C3 (DIE_UP). -/
def dieUp (x : Nat) (s : State) : Bool :=
  if x = 0 then !s.hub.loopback else !s.fenced (x - 1) && !(s.die (x - 1)).loopback

/-- DIE_UP as five bits. -/
def dieUpMask (s : State) : Nat := ((List.range 5).filter (fun x => dieUp x s)).foldl (fun m x => m + 2 ^ x) 0

/-- HEALTH (R307, R384, R394, R401). -/
def health (s : State) : Nat :=
  if s.glb.resetting.isSome then 2
  else if s.glb.failed || s.ctl.down != 0 || dieList.all (fun d => s.fenced d) then 3
  else if dieList.any (fun d => s.fenced d || (s.die d).withdrawn != 0) then 1
  else 0

/-- Whether the shutter's clamp is in force on a die (R356). -/
def clampOn (s : State) (d : Nat) : Bool := (s.die d).clamp || (s.die d).hold

/-- FLAGS of a telemetry record. -/
def telFlags (s : State) : Nat :=
  b2n s.pwr.unmet + 2 * b2n s.pwr.excursion + (dieList.map (fun d => 2 ^ (2 + d) * b2n (clampOn s d))).sum +
    64 * b2n (dieList.any (fun d => (s.die d).ltherm != 64) || s.hub.srvceil != 2)

/-- A telemetry record (R403). -/
def telRecord (m : Traffic) (seq : W32) (s : State) : List W64 :=
  let stackTemp := (List.range 12).foldl (fun t st => max t (s.stack st).temp.toNat) 0
  let temps := s.hub.temp.toNat + (dieList.map (fun d => 2 ^ (8 * (d + 1)) * (s.die d).temp.toNat)).sum
  let points := (dieList.map (fun d => 4 ^ d * (s.die d).point.toNat)).sum
  [ seq.toNat + 2 ^ 32 * (s.pwr.last % 2 ^ 16) + 2 ^ 48 * (s.pwr.avg % 2 ^ 16), s.hub.tel.toNat,
    temps + 2 ^ 40 * stackTemp + 2 ^ 48 * s.pwr.lcap.toNat + 2 ^ 56 * telFlags s,
    points + 2 ^ 8 * s.hub.srvceil.toNat + 2 ^ 11 * dieUpMask s + 2 ^ 16 * health s + 2 ^ 32 * m.hbmMb.toNat +
      2 ^ 48 * m.nlTx.toNat,
    m.nlRx.toNat + 2 ^ 16 * m.pcieMb.toNat + 2 ^ 32 * m.slots.toNat, s.ras.wrptr.toNat, 0, 0 ].map (BitVec.ofNat 64)

/-- A field of a telemetry record, by word and bits. -/
def telField (r : List W64) (w h l : Nat) : Nat := fld (r.getD w 0) h l

/-- A field of a per-second record made of the records' values. -/
def combineField (f : List Nat → Nat) (l : List (List W64)) (w h lo : Nat) (r : List W64) : List W64 :=
  r.set w (setFld (r.getD w 0) h lo (f (l.map (fun x => telField x w h lo))))

/-- The record of a second (R403): means for power and traffic, maxima for temperatures and counts. -/
def secRecord (l : List (List W64)) : List W64 :=
  let mean (v : List Nat) : Nat := v.sum / v.length
  let most (v : List Nat) : Nat := v.foldl max 0
  let r := l.headD []
  let r := [(0, 47, 32), (0, 63, 48), (3, 47, 32), (3, 63, 48), (4, 15, 0), (4, 31, 16)].foldl
    (fun r e => combineField mean l e.1 e.2.1 e.2.2 r) r
  [(2, 7, 0), (2, 15, 8), (2, 23, 16), (2, 31, 24), (2, 39, 32), (2, 47, 40), (4, 63, 32), (5, 31, 0)].foldl
    (fun r e => combineField most l e.1 e.2.1 e.2.2 r) r

/-- One millisecond of telemetry (R403), the thousandth of a second with the record of that second: nothing while its service does not run. -/
def telemetryOp (m : Traffic) (s : State) : State :=
  if s.serviceDown 4 then s
  else
    let seq := s.ctl.telSeq + 1
    let r := telRecord m seq s
    let hist := (r :: s.ctl.telHist).take 60000
    let c := { s.ctl with telSeq := seq, telRec := r, telHist := hist }
    { s with ctl :=
        if s.ctl.telFill + 1 < 1000 then { c with telFill := s.ctl.telFill + 1 }
        else { c with
          telFill := 0, telSecond := s.ctl.telSecond + 1
          telSecs := ((s.ctl.telSecond + 1, secRecord (hist.take 1000)) :: s.ctl.telSecs).take 604800 } }

/-- TELEMETRY_TICK (R403). -/
def execTelemetryTick (m : Traffic) (s : State) : Host.Outcome State Fault Refusal := .next (whenLive (telemetryOp m) s)

/-! ### The negative -/

/-- The negative resumed, its frozen contents discarded (R415). -/
def negResume (s : State) : State :=
  { s with
    ctl := { s.ctl with negFrozen := false }
    hub := { s.hub with trace := [] }
    dies := Sparse.mapVals {} s.dies (fun d => { d with trace := [] }) }

/-- A write of DBG_NEG_CTL (R415). -/
def negWriteOp (v : W64) (s : State) : State :=
  let s := { s with ctl := { s.ctl with
    negClasses := BitVec.ofNat 8 (fld v 7 0), negEn := bit v 8, negFreeze := bit v 9, trigFence := bit v 11
    trigCont := bit v 12, trigDegr := bit v 13, spill := bit v 14 } }
  if bit v 9 then negFreezeNow s
  else if s.ctl.negFrozen then negResume s
  else s

/-- NEGATIVE_FREEZE (R415). -/
def execNegativeFreeze (o : Origin) (v : W64) (s : State) : Host.Outcome State Fault Refusal :=
  .next (whenLive (fun s => if originFull o then negWriteOp v s else s) s)

/-! ### Management messages -/

/-- Response codes (R417). -/
def mOk : Nat := 0
def mBusy : Nat := 1
def mState : Nat := 2
def mAuth : Nat := 3
def mUnavailable : Nat := 4
def mInvalid : Nat := 5

/-- Whether a request of a command's class stands in the responder as another arrives (R417, R418, LOG 73): one that arrived at the same
hub TEL count. The second of two ATTEST requests finds it so; of other commands it is a free choice whether the first is answered already. -/
def msgStands (cmd : Nat) (s : State) : Bool := s.ctl.msgs.contains (cmd, s.hub.tel)

/-- A Brynuz message (R417): refused in a state that does not permit it; without an image the boot ROM serves only the commands of
R407, and in RETIRED only GET_IDENTITY. BUSY where another of its class stands. No answer while management is held down (R401). -/
def message (cmd : Nat) (states : List Nat) (f : State → State) (s : State) : State :=
  if !s.ctl.noImage && s.serviceDown 5 then s
  else if !states.contains s.fuses.lcState then s.emit (.mgmt cmd mState [])
  else if s.ctl.noImage && !([0x01, 0x10, 0x11].contains cmd) then s.emit (.mgmt cmd mUnavailable [])
  else if msgStands cmd s then
    if cmd = 0x03 then s.emit (.mgmt cmd mBusy [])
    else if (Config.freeBits s.free 0).getLsbD 0 then s.took.emit (.mgmt cmd mBusy []) else f s.took
  else f { s with ctl := { s.ctl with msgs := (cmd, s.hub.tel) :: s.ctl.msgs.filter (fun e => e.1 != cmd) } }

/-- States of each kind of message. -/
def allStates : List Nat := [0, 1, 2, 3, 4, 5]
def liveStates : List Nat := [0, 1, 2, 3, 4]
def keyStates : List Nat := [2, 3, 4]

/-- The steppings of the five dies. -/
def steppings (s : State) : List Byte := (List.range 5).map s.step

/-- GET_IDENTITY (R417). -/
def execGetIdentity (s : State) : Host.Outcome State Fault Refusal :=
  .next (whenLive (message 0x01 allStates (fun s =>
    s.emit (.mgmt 0x01 mOk (toBytes s.fuses.devid.toNat 8 ++ steppings s ++ toBytes s.fuses.lcState 1 ++
      toBytes s.ctl.version.toNat 4 ++ toBytes (health s) 1)))) s)

/-- GET_CERT (R417). -/
def execGetCert (s : State) : Host.Outcome State Fault Refusal :=
  .next (whenLive (message 0x02 keyStates (fun s =>
    s.emit (if s.flash.certPresent && !s.serviceDown 6 then .mgmt 0x02 mOk (Config.certificate s.fuses.devid)
            else .mgmt 0x02 mUnavailable []))) s)

/-! ### Attestation -/

/-- The next signature index, from the block in use or a newly reserved one (R410). Whether the write that reserves a block succeeds is
a free choice: a flash that fails it gives no index, and none is given once NEXT_BLOCK has reached 2^28. -/
def takeIndex (s : State) : Option Nat × State :=
  let use (i : Nat) (s : State) : Option Nat × State :=
    (some i, { s with ctl := { s.ctl with sigIndex := if (i + 1) % 4096 = 0 then none else some (i + 1) } })
  let k := s.flash.nextBlock
  if 2 ^ 28 ≤ k then (none, s)
  else
    match s.ctl.sigIndex with
    | some i => use i s
    | none =>
      if (Config.freeBits s.free 0).getLsbD 0 then
        let s := { s.took with flash := { s.flash with nextBlock := k + 1 } }
        if k + 1 < 2 ^ 28 then use (4096 * k) s else (none, s)
      else (none, s.took)

/-- The first 192 bytes of a report (R411). -/
def reportBody (nonce : List Byte) (s : State) : List Byte :=
  toBytes 1 4 ++ toBytes 10085 4 ++ toBytes s.fuses.devid.toNat 8 ++ nonce ++ toBytes s.fuses.lcState 1 ++ steppings s ++
    toBytes s.glb.revHeld.toNat 1 ++ toBytes 0 1 ++ toBytes s.ctl.version.toNat 4 ++ toBytes s.fuses.svn 4 ++
    toBytes s.ctl.digest.toNat 64 ++ toBytes (devFeatures s).toNat 16 ++
    toBytes (s.glb.drvAccept.toNat + 2 ^ 127 * b2n s.glb.locked) 16 ++ toBytes s.hub.tel.toNat 8 ++
    toBytes (s.net.nodeId.toNat + 2 ^ 32 * s.net.incarn.toNat) 8 ++ toBytes 0 16

/-- A report (R411): its body and the signature, which begins with its index, most significant byte first (RFC 8391). -/
def attestReport (i : Nat) (nonce : List Byte) (s : State) : List Byte :=
  let body := reportBody nonce s
  body ++ (toBytes i 5).reverse ++ (List.range 9888).map (fun j => (Config.signature i body).getD j 0)

/-- ATTEST (R410, R411). -/
def attestOp (nonce : List Byte) (s : State) : State :=
  if nonce.length ≠ 32 then s.emit (.mgmt 0x03 mInvalid [])
  else if !s.flash.keyPresent || s.serviceDown 6 then s.emit (.mgmt 0x03 mUnavailable [])
  else
    let t := takeIndex s
    match t.1 with
    | some i => t.2.emit (.mgmt 0x03 mOk (attestReport i nonce t.2))
    | none => t.2.emit (.mgmt 0x03 mUnavailable [])

/-- ATTEST (R411). -/
def execAttest (nonce : List Byte) (s : State) : Host.Outcome State Fault Refusal :=
  .next (whenLive (message 0x03 keyStates (attestOp nonce)) s)

/-! ### Firmware -/

/-- The slot that is not running (R417), changed. -/
def modIdleSlot (f : ImageSlot → ImageSlot) (s : State) : State :=
  if s.ctl.slot then { s with flash := { s.flash with slotA := f s.flash.slotA } }
  else { s with flash := { s.flash with slotB := f s.flash.slotB } }

/-- Whether flash is written for a message (R400): by Z7, or by the boot ROM where no image runs (R407). -/
def flashServed (s : State) : Bool := s.ctl.noImage || !s.serviceDown 7

/-- FW_WRITE (R417): into the slot not running, which is then invalid. -/
def fwWriteOp (off : Nat) (data : List Byte) (s : State) : State :=
  if !flashServed s then s.emit (.mgmt 0x10 mUnavailable [])
  else if 4096 < data.length ∨ 2 ^ 25 < off + data.length then s.emit (.mgmt 0x10 mInvalid [])
  else (modIdleSlot (fun x => ⟨Mem.setBytes x.raw off data, false⟩) s).emit (.mgmt 0x10 mOk [])

/-- FW_WRITE (R417). -/
def execFwWrite (off : Nat) (data : List Byte) (s : State) : Host.Outcome State Fault Refusal :=
  .next (whenLive (message 0x10 liveStates (fwWriteOp off data)) s)

/-- FW_COMMIT (R407, R417): the written slot is marked valid where the checks of R407 pass. -/
def fwCommitOp (s : State) : State :=
  if !flashServed s then s.emit (.mgmt 0x11 mUnavailable []) else
  let x := if s.ctl.slot then s.flash.slotA else s.flash.slotB
  let ok := imageFits s { x with valid := true }
  let s := if ok then modIdleSlot (fun x => { x with valid := true }) s else s
  s.emit (.mgmt 0x11 mOk (toBytes (b2n ok) 1))

/-- FW_COMMIT (R417). -/
def execFwCommit (s : State) : Host.Outcome State Fault Refusal :=
  .next (whenLive (message 0x11 liveStates fwCommitOp) s)

/-- FW_SVN_COMMIT (R406, R408): the fused SVN rises to that of the running image, 0 to 63. -/
def svnCommitOp (s : State) : State :=
  let x := if s.ctl.slot then s.flash.slotB else s.flash.slotA
  let svn := max s.fuses.svn (min 63 (hSvn (slotHeader x)))
  { s with fuses := { s.fuses with svn := svn } }.emit (.mgmt 0x12 mOk (toBytes svn 1))

/-- FW_SVN_COMMIT (R408). -/
def execFwSvnCommit (s : State) : Host.Outcome State Fault Refusal :=
  .next (whenLive (message 0x12 liveStates svnCommitOp) s)

/-! ### Life cycle -/

/-- LC_NONCE (R417). -/
def execLcNonce (s : State) : Host.Outcome State Fault Refusal :=
  .next (whenLive (message 0x20 liveStates (fun s => s.emit (.mgmt 0x20 mOk (toBytes s.ctl.nonce.toNat 8)))) s)

/-- The transitions of R413. -/
def lcLegal (src dest returns : Nat) : Bool :=
  (src == 0 && dest == 1) || (src == 1 && dest == 2) || (src == 2 && dest == 3) || (src == 3 && dest == 4 && decide (returns < 3)) ||
    (src == 4 && dest == 3) || (decide (1 ≤ src) && decide (src ≤ 4) && dest == 5)

/-- What a transition does besides its fuses (R413). -/
def lcEffect (src dest : Nat) (f : Flash) : Flash :=
  if src = 1 ∧ dest = 2 then { f with keyPresent := true, certPresent := true, nextBlock := 0 }
  else if dest = 5 then { f with keyPresent := false, certPresent := false, nextBlock := 0 }
  else f

/-- LC_REQUEST (R413, R414): authorised, it blows the fuses and the module resets; the nonce is drawn anew either way. -/
def lcRequestOp (dest : Nat) (nonce : W64) (token : List Byte) (s : State) : State :=
  let src := s.fuses.lcState
  let cur := s.ctl.nonce
  let ok := lcLegal src dest s.fuses.returns &&
    (Config.tokenVerifies s.fuses.devid src dest cur token || (src == 3 && dest == 5 && nonce == cur))
  let s := { s with ctl := { s.ctl with nonce := Config.nonce s.free } }.took
  if ok then
    let s := s.emit (.mgmt 0x21 mOk [])
    requestCold 9 { copyLog s with
      fuses := { s.fuses with lcState := dest, returns := if src = 3 ∧ dest = 4 then s.fuses.returns + 1 else s.fuses.returns }
      flash := lcEffect src dest (copyLog s).flash
      ctl := { s.ctl with lcPending := true } }
  else s.emit (.mgmt 0x21 mAuth [])

/-- LC_REQUEST (R413). -/
def execLcRequest (dest : Nat) (nonce : W64) (token : List Byte) (s : State) : Host.Outcome State Fault Refusal :=
  .next (whenLive (message 0x21 liveStates (fun s =>
    if s.serviceDown 6 then s.emit (.mgmt 0x21 mUnavailable []) else lcRequestOp dest nonce token s)) s)

/-! ### Records read out -/

/-- Records of a history whose numbers lie in a range (R403): a per-second record has the number of its second. -/
def telPick (secs : Bool) (first count : Nat) (s : State) : List (List W64) :=
  let l := if secs then s.ctl.telSecs else s.ctl.telHist.map (fun r => (telField r 0 31 0, r))
  ((l.filter (fun r => decide (first ≤ r.1) && decide (r.1 < first + count))).map (·.2)).reverse.take 255

/-- GET_TELEMETRY (R417). -/
def execGetTelemetry (secs : Bool) (first count : Nat) (s : State) : Host.Outcome State Fault Refusal :=
  .next (whenLive (message 0x30 liveStates (fun s =>
    s.emit (.mgmt 0x30 mOk ((telPick secs first count s).flatMap (fun r => r.flatMap (fun w => toBytes w.toNat 8)))))) s)

/-- The four words of an error record (R390). -/
def rasWords (r : RasRec) : List W64 :=
  [ BitVec.ofNat 64 (r.cls.toNat + 2 ^ 8 * r.code.toNat + 2 ^ 24 * (match r.ctx with | some c => c.val | none => 0) +
      2 ^ 30 * b2n r.ctx.isSome + 2 ^ 32 * r.unit.toNat + 2 ^ 48 * r.count.toNat), r.addr, r.info, r.time ]

/-- GET_LOG (R390, R417): records of Zoilo's history, the oldest it holds being number 0. -/
def execGetLog (first count : Nat) (s : State) : Host.Outcome State Fault Refusal :=
  .next (whenLive (message 0x31 liveStates (fun s =>
    s.emit (.mgmt 0x31 mOk (((s.ras.history.reverse.drop first).take (min count 511)).flatMap
      (fun r => (rasWords r).flatMap (fun w => toBytes w.toNat 8)))))) s)

/-- The bytes of a die's negative, oldest record first. -/
def traceImage (x : Nat) (s : State) : List Byte :=
  let l := if x = 0 then s.hub.trace else (s.die (x - 1)).trace
  l.reverse.flatMap (fun r => (List.range 32).map (fun i => (Config.traceBytes r.cls r.time r.data).getD i 0))

/-- TRACE_READ (R415, R417): only while the negative is frozen. -/
def execTraceRead (x : Fin 5) (off : Nat) (s : State) : Host.Outcome State Fault Refusal :=
  .next (whenLive (message 0x32 liveStates (fun s =>
    s.emit (if s.ctl.negFrozen then .mgmt 0x32 mOk (((traceImage x.val s).drop off).take 4096)
            else .mgmt 0x32 mUnavailable []))) s)

/-- What the numeric sensors of PLDM report (R416): input power, the three input voltages, each die's temperature and the highest stack
temperature. -/
def sensors (s : State) : List Nat :=
  [s.pwr.last, s.pwr.vmain.toNat, s.pwr.vio.toNat, s.pwr.vaux.toNat, s.hub.temp.toNat] ++
    dieList.map (fun d => (s.die d).temp.toNat) ++ [(List.range 12).foldl (fun t st => max t (s.stack st).temp.toNat) 0]

/-- Whether the MCTP endpoint answers messages of DMTF's types (R401, R407, R412, R416): Zoilo's management runs. -/
def endpointRuns (s : State) : Bool := s.live && !s.serviceDown 5 && s.fuses.lcState != 5

/-- The longest message that is assembled (R416). -/
def mctpMost : Nat := 16384

/-- The packet error code of SMBus (R430): CRC-8 with polynomial x^8 + x^2 + x + 1. -/
def pecOf (bs : List Byte) : Byte :=
  bs.foldl (fun c b => (List.range 8).foldl (fun c _ => if c.getLsbD 7 then (c <<< 1) ^^^ 7 else c <<< 1) (c ^^^ b)) 0

/-- A byte of the FRU EEPROM (R431): the operator area as written, the others in IPMI's layout, of which the manual does not give the
bytes. -/
def fruRead (s : State) (off : Nat) : Byte :=
  if 0x3800 ≤ off then Mem.byte s.aux.fruArea off
  else Config.fruByte s.fuses.devid s.aux.fruSeqCause (s.aux.fruTrips.foldl (fun m x => setBit m x.val true) 0) off

/-- A transfer on the SMBus at 0x62 (R416, R430): an MCTP message, whose PEC holds where it carries one. -/
def smbusMctp (msg : List Byte) (pec : Option Byte) (s : State) : State :=
  let ok := match pec with | some p => p == pecOf (0xC4 :: msg) | none => true
  if endpointRuns s && ok && decide (msg.length ≤ mctpMost) then
    let a := Config.mctpAnswer 0 msg []
    s.emit (.smbus a (pecOf (0xC5 :: a)))
  else s

/-- A transfer on the SMBus (R430, R431): nothing answers at addresses other than 0x62 and 0x50, and the FRU EEPROM answers whenever VIN_AUX
is valid; of its offsets those of the operator area alone may be written. -/
def smbusOp (addr : BitVec 7) (x : SmbXfer) (s : State) : State :=
  if addr = 0x62 then
    match x with
    | .mctp msg pec => smbusMctp msg pec s
    | .read _ _ => s
    | .write _ _ => s
  else if addr == 0x50 && s.pwr.auxV then
    match x with
    | .read off n => s.emit (.fru ((List.range (min n (0x4000 - off))).map (fun i => fruRead s (off + i))))
    | .write off data =>
      if 0x3800 ≤ off ∧ off + data.length ≤ 0x4000 then
        { s with aux := { s.aux with fruArea := Mem.setBytes s.aux.fruArea off data } }
      else s.emit .nack
    | .mctp _ _ => s.emit .nack
  else s

/-- MCTP_CONTROL (R416, R430, R431): a message over PCIe VDM through PF1, answered by the endpoint with what DMTF's specifications give, or
a transfer on the SMBus. -/
def execMctpControl (m : MgmtIn) (s : State) : Host.Outcome State Fault Refusal :=
  .next (match m with
    | .vdm msg =>
      if endpointRuns s && s.pcie.linkUp && decide (msg.length ≤ mctpMost) then s.emit (.mctp (Config.mctpAnswer 0 msg [])) else s
    | .smbus addr x => smbusOp addr x s)

/-- PLDM_REQUEST (R416). -/
def execPldmRequest (msg : List Byte) (s : State) : Host.Outcome State Fault Refusal :=
  .next (if endpointRuns s && decide (msg.length ≤ mctpMost) then s.emit (.mctp (Config.mctpAnswer 1 msg (sensors s))) else s)

/-! ### JTAG -/

/-- The IDCODE of the hub's TAP (R432). -/
def idcode (s : State) : W32 :=
  BitVec.ofNat 32 (1 + 2 * Config.jtagMaker.toNat + 2 ^ 12 * 0x4E12 + 2 ^ 28 * fld (s.step 0) 7 4)

/-- JTAG_INSTRUCTION (R412, R421, R432): the TAP holds the instruction; TRST_N resets it to IDCODE, SAMPLE/PRELOAD captures the contacts and
shifts the cells in. A debug instruction is BYPASS in states that do not permit it; in one that does, the manual does not say what it
does. -/
def execJtagInstruction (ir : JtagInstr) (s : State) : Host.Outcome State Fault Refusal :=
  let hold (i : JtagInstr) : State := { s with ctl := { s.ctl with tap := i } }
  if !(s.pwr.auxV && s.pwr.ioV && s.pwr.mainV) then .next s
  else
    match ir with
    | .idcode => .next ((hold .idcode).emit (.tap .idcode (idcode s)))
    | .trst => .next (hold .idcode)
    | .sample cells => .next ({ s with ctl := { s.ctl with tap := ir, cells := cells } }.emit (.scan (contacts s)))
    | .debug _ => if s.lcService then .refused .jtagDebug else .next (hold .bypass)
    | ir => .next (hold ir)

end Sys2Proof.Machine
end

