-- ==== Sys2Proof/Machine/RegSpace.lean ====
section
/-! DEFINITION. Register space: which register lies at an offset of BAR0 (R7, R10, R273), what it reads as, and what a write of it
does. Registers with a row of their own are written through the operation of that row. -/

namespace Sys2Proof.Machine

/-- The registers of BAR0 (R273) and of the functions' own BARs (R272). -/
inductive RegId where
  | dieId (x : Nat) | dieFeat (x h : Nat) | fwMin | d2dProfile | glbReset | resetCause | glbFence | ctxExposed
  | devFeat (h : Nat) | drvAccept (h : Nat) | drvStatus | contactHdr | contactDrv | contactCtx (c : Nat)
  | satLimit (c : Nat) | funcState (f : Nat)
  | sqRing (q : Nat) | sqCtl (q : Nat) | sqPos (q : Nat)
  | cqRing (q : Nat) | cqCtl (q : Nat) | cqPos (q : Nat) | cqMsi (q : Nat)
  | msix (k w : Nat) | pba (f w : Nat)
  | pwrInput | pwrCap | pwrState | pwrGroup | clkArr | clkSrv (k : Nat) | therm (x : Nat)
  | rasCtl | rasRoute (k : Nat) | rasLog (i w : Nat)
  | secLc | secNonce | secDevid | secFw
  | objTable (c : Nat) | objFault (c : Nat) | sig (c : Nat) | arm (c a : Nat) | armMsi (c a : Nat) | objVal (p : Nat)
  | xRoot (c : Nat) | xFault (c : Nat) | winFault | winRange (w : Nat) | winCtl (w : Nat) | imsic (key : Nat)
  | qrole | node | udp | addrtab | xport | quadStatus (q : Nat) | nicTx (r w : Nat) | nicRx (r w : Nat)
  | hbmStatus (s : Nat) | ecc (s : Nat) | errAddr (s : Nat) | scrub (s : Nat) | region (s b : Nat)
  | tgenCtl (s c : Nat) | tgenStat (s c : Nat) | p1500 (s : Nat) | p1500Buf (s w : Nat)
  | d2dRole (d : Nat) | shutter (d : Nat) | tileAvail (d : Nat) | repair (t a : Nat) | satcnt (t : Nat) | tgeFault (t : Nat)
  | telRec (w : Nat) | pmc (x k : Nat) | pmctl (x : Nat) | negCtl
  | sqTail (q : Nat) | cqHead (q : Nat)
deriving DecidableEq, Repr

/-- Whether a register is 64 bits wide (R7). -/
def RegId.wide : RegId → Bool
  | .fwMin | .d2dProfile | .drvStatus | .satLimit _ | .funcState _ | .msix _ _ | .clkSrv _ | .secLc | .objVal _ | .imsic _
  | .scrub _ | .region _ _ | .p1500 _ | .p1500Buf _ _ | .tileAvail _ | .pmctl _ | .sqTail _ | .cqHead _ => false
  | .dieId _ | .dieFeat _ _ | .glbReset | .resetCause | .glbFence | .ctxExposed | .devFeat _ | .drvAccept _ | .contactHdr
  | .contactDrv | .contactCtx _ | .sqRing _ | .sqCtl _ | .sqPos _ | .cqRing _ | .cqCtl _ | .cqPos _ | .cqMsi _ | .pba _ _
  | .pwrInput | .pwrCap | .pwrState | .pwrGroup | .clkArr | .therm _ | .rasCtl | .rasRoute _ | .rasLog _ _ | .secNonce
  | .secDevid | .secFw | .objTable _ | .objFault _ | .sig _ | .arm _ _ | .armMsi _ _ | .xRoot _ | .xFault _ | .winFault
  | .winRange _ | .winCtl _ | .qrole | .node | .udp | .addrtab | .xport | .quadStatus _ | .nicTx _ _ | .nicRx _ _
  | .hbmStatus _ | .ecc _ | .errAddr _ | .tgenCtl _ _ | .tgenStat _ _ | .d2dRole _ | .shutter _ | .repair _ _ | .satcnt _
  | .tgeFault _ | .telRec _ | .pmc _ _ | .negCtl => true

/-! ### The map -/

/-- The index and the offset in it of an array of `n` units of `stride` bytes from `base` on. -/
def slotAt (off base stride n : Nat) : Option (Nat × Nat) :=
  if base ≤ off ∧ off < base + stride * n then some ((off - base) / stride, (off - base) % stride) else none

/-- GLB registers, by offset in the block. -/
def glbAt (off : Nat) : Option RegId :=
  match off with
  | 0xC0 => some .fwMin
  | 0x100 => some .d2dProfile
  | 0x200 => some .glbReset
  | 0x208 => some .resetCause
  | 0x210 => some .glbFence
  | 0x218 => some .ctxExposed
  | 0x300 => some (.devFeat 0)
  | 0x308 => some (.devFeat 1)
  | 0x310 => some (.drvAccept 0)
  | 0x318 => some (.drvAccept 1)
  | 0x320 => some .drvStatus
  | 0x1000 => some .contactHdr
  | 0x1008 => some .contactDrv
  | _ =>
    match slotAt off 0x20 0x20 5, slotAt off 0x1100 8 64 with
    | some (x, 0), _ => some (.dieId x)
    | some (x, 8), _ => some (.dieFeat x 0)
    | some (x, 16), _ => some (.dieFeat x 1)
    | _, some (c, 0) => some (.contactCtx c)
    | _, _ => none

/-- The MSI-X table and PBA of a function from two offsets on (R272-R274): 16 B entries of four words, PBA words of 64 bits. -/
def msixAt (f table pbaBase off : Nat) : Option RegId :=
  match slotAt off table 16 (msixCount f), slotAt off pbaBase 8 (ceilDiv (msixCount f) 64) with
  | some (v, r), _ => if r % 4 = 0 then some (.msix (msixBase f + v) (r / 4)) else none
  | none, some (w, 0) => some (.pba f w)
  | _, _ => none

/-- CMD registers. -/
def cmdAt (off : Nat) : Option RegId :=
  match slotAt off 0x102000 4 64, slotAt off 0x103800 4 34, slotAt off 0x108000 0x20 1024, slotAt off 0x110000 0x20 1024 with
  | some (c, 0), _, _, _ => some (.satLimit c)
  | _, some (f, 0), _, _ => some (.funcState f)
  | _, _, some (q, 0), _ => some (.sqRing q)
  | _, _, some (q, 8), _ => some (.sqCtl q)
  | _, _, some (q, 16), _ => some (.sqPos q)
  | _, _, _, some (q, 0) => some (.cqRing q)
  | _, _, _, some (q, 8) => some (.cqCtl q)
  | _, _, _, some (q, 16) => some (.cqPos q)
  | _, _, _, some (q, 24) => some (.cqMsi q)
  | _, _, _, _ => msixAt 0 0x1C0000 0x1C4000 off

/-- PWR, CLK, THERM, RAS and SEC registers. -/
def pwrAt (off : Nat) : Option RegId :=
  match off with
  | 0x200000 => some .pwrInput
  | 0x200010 => some .pwrCap
  | 0x200018 => some .pwrState
  | 0x200020 => some .pwrGroup
  | 0x201000 => some .clkArr
  | 0x300000 => some .rasCtl
  | 0x400000 => some .secLc
  | 0x400008 => some .secNonce
  | 0x400010 => some .secDevid
  | 0x400018 => some .secFw
  | _ =>
    match slotAt off 0x201100 4 48, slotAt off 0x202000 16 5, slotAt off 0x300100 16 8, slotAt off 0x301000 0x20 256 with
    | some (k, 0), _, _, _ => some (.clkSrv k)
    | _, some (x, 0), _, _ => some (.therm x)
    | _, _, some (k, 0), _ => some (.rasRoute k)
    | _, _, _, some (i, r) => if r % 8 = 0 then some (.rasLog i (r / 8)) else none
    | _, _, _, _ => none

/-- A register of a context's signal page, by offset in the page (R263, R264). -/
def pageAt (c r : Nat) : Option RegId :=
  if r = 0 then some (.sig c)
  else
    match slotAt r 0x100 16 8 with
    | some (a, 0) => some (.arm c a)
    | some (a, 8) => some (.armMsi c a)
    | _ => none

/-- SYNC and XLAT registers, the interrupt files among them (R240: seteipnum_le at offset 0 of a file's page). -/
def syncAt (off : Nat) : Option RegId :=
  match slotAt off 0x500000 16 64, slotAt off 0x510000 0x1000 64, slotAt off 0x580000 4 16384, slotAt off 0x600000 16 64,
      slotAt off 0x610000 16 4096 with
  | some (c, 0), _, _, _, _ => some (.objTable c)
  | some (c, 8), _, _, _, _ => some (.objFault c)
  | _, some (c, r), _, _, _ => pageAt c r
  | _, _, some (p, 0), _, _ => some (.objVal p)
  | _, _, _, some (c, 0), _ => some (.xRoot c)
  | _, _, _, some (c, 8), _ => some (.xFault c)
  | _, _, _, _, some (w, 0) => some (.winRange w)
  | _, _, _, _, some (w, 8) => some (.winCtl w)
  | _, _, _, _, _ =>
    if off = 0x601000 then some .winFault
    else if off % 4096 = 0 then (imsicAt off).map .imsic
    else none

/-- NET registers. -/
def netAt (off : Nat) : Option RegId :=
  match off with
  | 0x700000 => some .qrole
  | 0x700008 => some .node
  | 0x700010 => some .udp
  | 0x700030 => some .addrtab
  | 0x700040 => some .xport
  | _ =>
    match slotAt off 0x701000 0x100 16, slotAt off 0x710000 0x20 64, slotAt off 0x711000 0x20 64 with
    | some (q, 0), _, _ => some (.quadStatus q)
    | _, some (r, w), _ => if w % 8 = 0 then some (.nicTx r (w / 8)) else none
    | _, _, some (r, w) => if w % 8 = 0 then some (.nicRx r (w / 8)) else none
    | _, _, _ => none

/-- A register of a stack's window, by offset in the window. -/
def hbmAt (s r : Nat) : Option RegId :=
  match r with
  | 0 => some (.hbmStatus s)
  | 0x10 => some (.ecc s)
  | 0x18 => some (.errAddr s)
  | 0x20 => some (.scrub s)
  | 0x2000 => some (.p1500 s)
  | _ =>
    match slotAt r 0x100 4 32, slotAt r 0x1000 16 32, slotAt r 0x2100 4 64 with
    | some (b, 0), _, _ => some (.region s b)
    | _, some (c, 0), _ => some (.tgenCtl s c)
    | _, some (c, 8), _ => some (.tgenStat s c)
    | _, _, some (w, 0) => some (.p1500Buf s w)
    | _, _, _ => none

/-- A register of a compute die's block, by offset in the block. -/
def dieAt (d r : Nat) : Option RegId :=
  match r with
  | 0x1000 => some (.d2dRole d)
  | 0x2000 => some (.shutter d)
  | 0x2010 => some (.tileAvail d)
  | _ =>
    match slotAt r 0x40000 0x1000 24 with
    | some (t, 0) => some (.repair (24 * d + t) 0)
    | some (t, 8) => some (.repair (24 * d + t) 1)
    | some (t, 0x100) => some (.satcnt (24 * d + t))
    | some (t, 0x200) => some (.tgeFault (24 * d + t))
    | _ => none

/-- TEL and DBG registers. -/
def telAt (off : Nat) : Option RegId :=
  if off = 0xF00000 then some .negCtl
  else
    match slotAt off 0xE00000 8 8, slotAt off 0xE01000 0x100 5 with
    | some (w, 0), _ => some (.telRec w)
    | _, some (x, r) => if r = 0x80 then some (.pmctl x) else if r < 0x80 ∧ r % 16 = 0 then some (.pmc x (r / 16)) else none
    | _, _ => none

/-- The register whose first byte lies at an offset of BAR0 (R273). -/
def regAt (off : Nat) : Option RegId :=
  if off < 0x100000 then glbAt off
  else if off < 0x200000 then cmdAt off
  else if off < 0x500000 then pwrAt off
  else if off < 0x700000 then syncAt off
  else if off < 0x900000 then netAt off
  else
    match slotAt off 0x900000 0x10000 12, slotAt off 0xA00000 0x100000 4, slotAt off 0x1000000 0x1000 1024 with
    | some (s, r), _, _ => hbmAt s r
    | _, some (d, r), _ => dieAt d r
    | _, _, some (q, 0) => some (.sqTail q)
    | _, _, some (q, 8) => some (.cqHead q)
    | _, _, some (_, _) => none
    | _, _, none => telAt off

/-- The i-th queue assigned to a VF, counted in ascending queue number (R272). -/
def vfQueue (s : State) (n i : Nat) : Option Nat :=
  ((List.range 1024).filter (fun q => (s.sq q).func.toNat == n + 1 || (s.cq q).func.toNat == n + 1))[i]?

/-- The context bound to a VF (R263). -/
def vfCtx (s : State) (n : Nat) : Option Nat :=
  (List.range 64).find? (fun c => (s.ctx c).func.toNat == n + 1 && (s.ctx c).state != .free)

/-- The register at an offset of an origin's own BAR0 (R271, R272), with the place where its lower half is held: its offset in the BAR0 map,
or one beyond that map for what only its function has. -/
def regOf (s : State) (o : Origin) (off : Nat) : Option (RegId × Nat) :=
  match o with
  | .pf1 =>
    if off < 0x100000 then (glbAt off).map (·, off)
    else if off < 0x200000 then (telAt (off + 0xD00000)).map (·, off + 0xD00000)
    else (msixAt 33 0x200000 0x201000 off).map (·, 0x2000000 + 0x40000 * 33 + off)
  | .vf n =>
    match slotAt off 0 0x1000 16, slotAt off 0x12000 0x1000 1 with
    | some (i, r), _ =>
      match vfQueue s n.val i with
      | some q => (regAt (bellOff q + r)).map (·, bellOff q + r)
      | none => none
    | none, some (_, r) =>
      match vfCtx s n.val with
      | some c => (pageAt c r).map (·, sigPage c + r)
      | none => none
    | none, none => (msixAt (n.val + 1) 0x10000 0x11000 off).map (·, 0x2000000 + 0x40000 * (n.val + 1) + off)
  | _ => (regAt off).map (·, off)

/-! ### Reads -/

/-- A register value from its fields: (lowest bit, value). -/
def pack (l : List (Nat × Nat)) : Nat := (l.map (fun e => e.2 * 2 ^ e.1)).sum

/-- STATE of a queue. -/
def qstateCode : QState → Nat
  | .disabled => 0 | .active => 1 | .draining => 2 | .error => 3

/-- ERRCAUSE of a queue. -/
def qerrCode : QErr → Nat
  | .none => 0 | .torn => 1 | .tail => 2 | .ringPoison => 3 | .ringUnreachable => 4

/-- STATE of a context. -/
def ctxStateCode : CtxState → Nat
  | .free => 0 | .active => 1 | .draining => 2 | .preempted => 3

/-- The phase of a point change as BUSY. -/
def Die.changing (x : Die) : Bool := x.phase != .idle

/-- Bits d of a field that the four compute dies share, `w` bits each. -/
def perDie (s : State) (w : Nat) (f : Die → Nat) : Nat := (dieList.map (fun d => f (s.die d) * 2 ^ (w * d))).sum

/-- One word of an error record (R390). -/
def rasWord (r : RasRec) (w : Nat) : Nat :=
  match w with
  | 0 => pack [(0, r.cls.toNat), (8, r.code.toNat), (24, match r.ctx with | some c => c.val | none => 0),
      (30, b2n r.ctx.isSome), (32, r.unit.toNat), (48, r.count.toNat)]
  | 1 => r.addr.toNat
  | 2 => r.info.toNat
  | _ => r.time.toNat

/-- The words of a NIC ring's registers (R326). -/
def nicWord (rx : Bool) (r : NicRing) (w : Nat) : Nat :=
  match w with
  | 0 => pack [(0, r.l.toNat), (12, r.base.toNat)]
  | 1 => pack [(0, b2n r.enable), (1, qstateCode r.state), (12, if rx then r.bufsz.toNat else 0)]
  | 2 => pack [(0, r.tail.toNat), (32, r.head.toNat)]
  | _ => pack [(0, r.ident.toNat), (12, r.file.toNat)]

/-- The points of the efficiency registers that a change of a die is latched for or runs (R357). -/
def clkArrValue (s : State) : Nat :=
  pack [(0, s.pwr.target.toNat), (8, perDie s 2 (fun x => x.point.toNat)), (16, perDie s 1 (fun x => b2n (x.steps != 0))),
    (20, perDie s 1 (fun x => b2n x.latched)), (24, perDie s 1 (fun x => b2n x.changing))]

/-- THERM_Dx (R359, R361). -/
def thermValue (s : State) (x : Nat) : Nat :=
  let trip := b2n (s.aux.trip.getLsbD x)
  if x = 0 then
    pack [(0, s.hub.temp.toNat), (8, s.hub.peak.toNat), (23, b2n (s.hub.srvceil != 2)), (25, trip), (32, s.hub.srvceil.toNat)]
  else
    let d := s.die (x - 1)
    pack [(0, d.temp.toNat), (8, d.peak.toNat), (16, d.ltherm.toNat), (23, b2n (d.ltherm != 64)), (24, b2n (d.steps != 0)),
      (25, trip)]

/-- The performance counter k of die x (R396). -/
def State.pmc (s : State) (x k : Nat) : Pmc :=
  Sparse.read {} (if x = 0 then s.hub.pmc else (s.die (x - 1)).pmc) k

/-- What a register reads as (R7, R9): WO fields and reserved bits as 0. -/
def regValue (s : State) : RegId → Nat
  | .dieId x => pack [(0, (s.step x).toNat), (8, if x = 0 then 1 else 2), (12, b2n (s.glb.revHeld.getLsbD x)),
      (13, b2n (s.glb.inset.getLsbD x))]
  | .dieFeat x h => if h = 0 then (s.word x).toNat else 0
  | .fwMin => pack [(0, s.glb.fwMinHub.toNat), (8, s.glb.fwMinComp.toNat)]
  | .d2dProfile => pack [(0, s.glb.d2dNext.toNat), (4, s.glb.d2dActive.toNat)]
  | .glbReset => pack [(8, s.glb.rstTile.toNat), (16, s.glb.rstCtx.toNat)]
  | .resetCause => pack [(0, s.glb.lastCause.toNat), (8, s.glb.dieBusy.toNat), (12, b2n s.glb.tileBusy.isSome),
      (13, b2n s.glb.ctxBusy.isSome), (32, s.glb.warms.toNat)]
  | .glbFence => pack [(0, perDie s 1 (fun x => b2n (x.fenced || x.held))), (4, perDie s 1 (fun x => b2n x.held)),
      (8, perDie s 4 (fun x => x.cause.toNat)), (24, perDie s 1 (fun x => b2n x.exposing))]
  | .ctxExposed => s.glb.exposed.toNat
  | .devFeat h => if h = 0 then (devFeatures s).toNat else 0
  | .drvAccept h => if h = 0 then s.glb.drvAccept.toNat else 0
  | .drvStatus => b2n s.glb.locked
  | .contactHdr => pack [(0, 1), (8, b2n s.glb.ready), (9, health s), (11, b2n s.glb.hostLost), (16, dieUpMask s),
      (32, s.glb.linkdowns.toNat)]
  | .contactDrv => pack [(0, s.glb.epoch.toNat), (32, b2n s.glb.attached)]
  | .contactCtx c =>
    let x := s.ctx c
    pack [(0, ctxStateCode x.state), (2, b2n x.pending.isSome), (3, b2n (x.state != .free && x.epoch != s.glb.epoch)),
      (5, x.func.toNat), (32, x.epoch.toNat)]
  | .satLimit c => pack [(0, (s.ctx c).limit.toNat), (16, b2n (s.ctx c).satLegacy)]
  | .funcState f => pack [(0, funcState f s), (2, b2n (fbit s.pcie.pend f))]
  | .sqRing q => pack [(0, (s.sq q).l.toNat), (12, (s.sq q).base.toNat)]
  | .sqCtl q =>
    let x := s.sq q
    pack [(0, b2n x.enable), (1, qstateCode x.state), (3, b2n x.pending), (4, b2n x.admin), (5, x.ctx.toNat), (11, x.cq.toNat),
      (21, x.func.toNat), (27, qerrCode x.err)]
  | .sqPos q => pack [(0, (s.sq q).head.toNat), (32, (s.sq q).nextSeq.toNat)]
  | .cqRing q => pack [(0, (s.cq q).l.toNat), (12, (s.cq q).base.toNat)]
  | .cqCtl q =>
    let x := s.cq q
    pack [(0, b2n x.enable), (1, qstateCode x.state), (3, b2n x.pending), (4, x.irqmode.toNat), (6, b2n x.irqall),
      (8, x.vector.toNat), (18, x.func.toNat), (24, qerrCode x.err), (32, x.head.toNat)]
  | .cqPos q => (s.cq q).tail.toNat
  | .cqMsi q => pack [(0, (s.cq q).ident.toNat), (12, (s.cq q).file.toNat), (48, (s.cq q).dropped.toNat)]
  | .msix k w =>
    let e := Sparse.read {} s.pcie.msix k
    match w with
    | 0 => e.addr.toNat % 2 ^ 32
    | 1 => e.addr.toNat / 2 ^ 32
    | 2 => e.data.toNat
    | _ => b2n e.mask
  | .pba f w => ((List.range 64).map (fun i =>
      if 64 * w + i < msixCount f ∧ KeySet.has s.pcie.pba (msixBase f + 64 * w + i) then 2 ^ i else 0)).sum
  | .pwrInput => pack [(0, s.pwr.vmain.toNat), (16, s.pwr.vio.toNat), (32, s.pwr.vaux.toNat), (44, s.pwr.lastSeq.toNat),
      (47, b2n s.pwr.lastV), (48, s.pwr.uv.toNat)]
  | .pwrCap => pack [(0, s.pwr.cap), (16, s.pwr.window), (32, b2n s.pwr.group.isSome)]
  | .pwrState => pack [(0, s.pwr.lcap.toNat), (8, s.pwr.last % 4096), (20, s.pwr.avg % 4096), (32, b2n s.pwr.unmet),
      (33, b2n s.pwr.unmetEv), (34, b2n s.pwr.excursion), (48, s.pwr.excount.toNat)]
  | .pwrGroup => pack [(0, (match s.pwr.group with | some g => g.base | none => 0)), (11, b2n s.pwr.group.isSome),
      (12, s.pwr.effective), (24, s.pwr.received), (36, s.pwr.donated), (48, s.pwr.wait.toNat), (56, b2n s.pwr.joining)]
  | .clkArr => clkArrValue s
  | .clkSrv k => pack [(0, s.srvDiv k), (3, s.srvAct k)]
  | .therm x => thermValue s x
  | .rasCtl => s.ras.wrptr.toNat
  | .rasRoute k =>
    let r := Sparse.read {} s.ras.route k
    pack [(0, b2n r.pf0en), (1, r.pf0vec.toNat), (11, b2n r.pf1en), (12, r.pf1vec.toNat), (18, b2n r.imsicen),
      (19, r.ident.toNat), (28, r.file.toNat)]
  | .rasLog i w => rasWord (Sparse.read {} s.ras.log i) w
  | .secLc => pack [(0, s.fuses.lcState), (3, s.fuses.returns), (5, b2n s.ctl.lcPending)]
  | .secNonce => s.ctl.nonce.toNat
  | .secDevid => s.fuses.devid.toNat
  | .secFw => pack [(0, s.ctl.version.toNat), (32, s.fuses.svn), (38, b2n s.ctl.slot), (39, b2n s.fuses.keyRevoked)]
  | .objTable c => pack [(0, b2n (s.ctx c).objV), (1, (s.ctx c).objSize.toNat), (12, (s.ctx c).objBase.toNat)]
  | .objFault c => (s.ctx c).objFault.toNat
  | .sig _ => 0
  | .arm c a =>
    let x := Sparse.read {} (s.ctx c).arms a
    pack [(0, x.vid.toNat), (20, b2n x.enable), (21, b2n x.fired), (22, b2n x.lost), (32, x.target.toNat)]
  | .armMsi c a =>
    let x := Sparse.read {} (s.ctx c).arms a
    pack [(0, x.ident.toNat), (12, x.file.toNat)]
  | .objVal p => if s.fenced (dieOfObj p) then 0 else (s.obj p).toNat
  | .xRoot c => pack [(0, b2n (s.ctx c).rootV), (1, b2n (s.ctx c).safelight), (12, (s.ctx c).root.toNat)]
  | .xFault c => (s.ctx c).fault.toNat
  | .winFault => s.net.winFault.toNat
  | .winRange i => pack [(0, (s.window i).base.toNat), (36, (s.window i).len.toNat)]
  | .winCtl i =>
    let w := s.window i
    pack [(0, w.node.toNat), (20, b2n w.any), (21, w.ctx.toNat), (27, b2n w.w), (28, b2n w.r), (29, b2n w.sig), (30, b2n w.red),
      (31, b2n w.enable), (32, b2n w.drain), (33, b2n w.pending), (48, w.faults.toNat)]
  | .imsic _ => 0
  | .qrole => pack [(0, s.net.qroleNext.toNat), (32, ((List.range 16).map (fun q => (s.quad q).role.toNat * 4 ^ q)).sum)]
  | .node => pack [(0, s.net.nodeId.toNat), (32, s.net.incarn.toNat)]
  | .udp => pack [(0, s.net.port.toNat), (16, s.net.maxpay.toNat), (18, b2n s.net.vlanen), (19, s.net.vlan.toNat),
      (32, s.net.dscp.toNat)]
  | .addrtab => pack [(0, b2n s.net.atValid), (1, s.net.atSize.toNat), (12, s.net.atBase.toNat)]
  | .xport => pack [(0, s.net.rto.toNat), (16, s.net.retries.toNat), (32, s.net.xpeer.toNat)]
  | .quadStatus q =>
    let x := s.quad q
    pack [(0, x.state.toNat), (2, x.lanes.toNat), (6, b2n x.half), (7, b2n x.peerv), (8, x.peer.toNat), (32, x.replays.toNat),
      (48, x.drops.toNat)]
  | .nicTx r w => nicWord false (s.nicTx r) w
  | .nicRx r w => nicWord true (s.nicRx r) w
  | .hbmStatus t => pack [(0, (s.stack t).pcFail.toNat), (32, b2n (!s.fenced (dieOfStack t))), (33, (s.stack t).temp.toNat),
      (41, b2n (s.stack t).ref2x)]
  | .ecc t => pack [(0, (s.stack t).ce.toNat), (32, (s.stack t).ue.toNat), (48, b2n (s.stack t).ceEv), (49, b2n (s.stack t).ueEv)]
  | .errAddr t => pack [(0, (s.stack t).errBurst.toNat), (30, b2n (s.stack t).errUe), (31, (s.stack t).errSrc.toNat),
      (34, b2n (s.stack t).errValid)]
  | .scrub t => pack [(0, (s.stack t).period.toNat), (8, b2n (s.stack t).agEnable), (16, (s.stack t).passes.toNat)]
  | .region t b =>
    let r := s.region t b
    pack [(0, r.next.toNat), (4, r.active.toNat), (9, b2n (Sparse.find? s.pool.change b).isSome), (10, b2n r.refused),
      (11, b2n (regionRsv t b))]
  | .tgenCtl t c =>
    let g := s.tgen t c
    pack [(2, g.pattern.toNat), (4, g.size.toNat), (6, b2n g.random), (7, g.mode.toNat), (32, g.len.toNat)]
  | .tgenStat t c =>
    let g := s.tgen t c
    pack [(0, b2n g.running), (1, b2n g.done), (16, g.errors.toNat), (32, g.first.toNat), (57, b2n g.firstv)]
  | .p1500 t =>
    if s.lcService then
      let x := s.stack t
      pack [(0, x.wir.toNat), (8, x.p1500Ch.toNat), (12, x.p1500Len.toNat), (24, b2n x.p1500Busy), (25, b2n x.p1500Done)]
    else 0
  | .p1500Buf t w => if s.lcService then ofBytes (Mem.bytes (s.stack t).shift (4 * w) 4) else 0
  | .d2dRole d => pack [(0, (s.die d).roles.toNat), (48, b2n (s.die d).partnerUp),
      (49, b2n (!s.fenced d && !(s.die d).loopback))]
  | .shutter d =>
    let x := s.die d
    pack [(0, x.trips.toNat), (32, b2n (clampOn s d)), (33, b2n x.hold), (34, b2n (x.droops != 0)), (48, x.lastTile.toNat)]
  | .tileAvail d => (s.die d).withdrawn.toNat
  | .repair t a =>
    let r := Sparse.read {} s.fuses.repair (2 * t + a)
    let u := if a = 0 then (s.tile t).arr0 else (s.tile t).arr1
    pack [(0, r.xrow0.toNat), (8, r.xrow1.toNat), (16, r.xcol0.toNat), (24, r.xcol1.toNat), (32, r.rowsUsed.toNat),
      (34, r.colsUsed.toNat), (36, b2n u.bistFail), (37, b2n u.off)]
  | .satcnt t => pack [(0, (s.tile t).satCount.toNat), (32, (s.tile t).satOver.toNat), (48, b2n (s.tile t).satEvent)]
  | .tgeFault t => (s.tile t).tgeFault.toNat
  | .telRec w => (s.ctl.telRec.getD w 0).toNat
  | .pmc x k =>
    let p := s.pmc x k
    pack [(0, p.count.toNat), (48, p.event.toNat), (56, b2n p.en), (57, b2n p.ovf)]
  | .pmctl x => b2n (if x = 0 then s.hub.freeze else (s.die (x - 1)).freeze)
  | .negCtl => pack [(0, s.ctl.negClasses.toNat), (8, b2n s.ctl.negEn), (9, b2n s.ctl.negFreeze), (10, b2n s.ctl.negFrozen),
      (11, b2n s.ctl.trigFence), (12, b2n s.ctl.trigCont), (13, b2n s.ctl.trigDegr), (14, b2n s.ctl.spill),
      (32, s.hub.wrptr.toNat)]
  | .sqTail _ => 0
  | .cqHead _ => 0

/-- What an origin reads in a register: the value of an object from which a die in test mode parts it is free (R21, LOG 163). -/
def regSeen (s : State) (o : Origin) (id : RegId) : Nat :=
  match id with
  | .objVal p =>
    if s.cutOff (originReq o) (dieOfObj p) && !s.fenced (dieOfObj p) then (Config.freeBits s.free p).toNat else regValue s id
  | _ => regValue s id

/-- A 32-bit read of an aligned offset (R7, R10). -/
def regRead4 (s : State) (o : Origin) (off : Nat) : Nat :=
  match regOf s o off with
  | some (id, _) => regSeen s o id % 2 ^ 32
  | none =>
    match (if off % 8 = 4 then regOf s o (off - 4) else none) with
    | some (id, _) => if id.wide then regSeen s o id / 2 ^ 32 % 2 ^ 32 else 0
    | none => 0

/-- A read of register space of 4 or 8 bytes at an aligned offset (R7). -/
def regRead (s : State) (o : Origin) (off n : Nat) : Nat :=
  if n = 4 then regRead4 s o off
  else
    match regOf s o off with
    | some (id, _) => if id.wide then regSeen s o id else regRead4 s o off + 2 ^ 32 * regRead4 s o (off + 4)
    | none => regRead4 s o off + 2 ^ 32 * regRead4 s o (off + 4)

/-! ### Performance and saturation counters -/

/-- A write of CDIEd_Tt_SATCNT (R103). -/
def satcntOp (t : Nat) (v : W64) (s : State) : State :=
  s.modTile t (fun x =>
    let x := { x with satEvent := x.satEvent && !bit v 48 }
    if bit v 49 then { x with satCount := 0, satOver := 0 } else x)

/-- SATCNT_CLR (R103). -/
def execSatcntClr (o : Origin) (t : TileId) (v : W64) (s : State) : Host.Outcome State Fault Refusal :=
  .next (whenLive (fun s => if originFull o then satcntOp t.val v s else s) s)

/-- Whether an origin reaches the TEL block (R271, R272). -/
def originTel (o : Origin) : Bool := originFull o || o == .pf1

/-- The counters of a die changed, x = 0 H, 1-4 C0-C3. -/
def modPmc (x : Nat) (f : Sparse Pmc → Sparse Pmc) (s : State) : State :=
  if x = 0 then { s with hub := { s.hub with pmc := f s.hub.pmc } } else s.modDie (x - 1) (fun d => { d with pmc := f d.pmc })

/-- A write of TEL_Dx_PMCTL (R396): CLEAR first, then FREEZE. -/
def pmctlOp (x : Nat) (v : Nat) (s : State) : State :=
  let s := if nbit v 1 then
      modPmc x (fun m => Sparse.mapVals {} m (fun p => { p with count := 0, ovf := false })) s
    else s
  if x = 0 then { s with hub := { s.hub with freeze := nbit v 0 } } else s.modDie (x - 1) (fun d => { d with freeze := nbit v 0 })

/-- PMC_CLEAR (R396). -/
def execPmcClear (o : Origin) (x : Fin 5) (v : W32) (s : State) : Host.Outcome State Fault Refusal :=
  .next (whenLive (fun s => if originTel o then pmctlOp x.val v.toNat s else s) s)

/-- PMC_FREEZE (R396). -/
def execPmcFreeze (o : Origin) (x : Fin 5) (v : W32) (s : State) : Host.Outcome State Fault Refusal :=
  .next (whenLive (fun s => if originTel o then pmctlOp x.val v.toNat s else s) s)

/-- Whether an event code of a die is not reserved (R396): 0x01-0x08 on a compute die, 0x01-0x06 on H. -/
def pmcEventOk (x e : Nat) : Bool := decide (1 ≤ e) && decide (e ≤ (if x = 0 then 6 else 8))

/-- A write of TEL_Dx_PMCk (R396). -/
def pmcOp (o : Origin) (x k : Nat) (v : W64) (s : State) : State :=
  let p := s.pmc x k
  let ok := pmcEventOk x (fld v 55 48)
  let p' : Pmc := { count := BitVec.ofNat 48 (fld v 47 0), event := if ok then BitVec.ofNat 8 (fld v 55 48) else p.event
                    en := bit v 56, ovf := p.ovf && !bit v 57 }
  let s := modPmc x (fun m => Sparse.write {} m k p') s
  if ok then s else logReg (0xE01000 + 0x100 * x + 0x10 * k) (originReq o) s

/-! ### Writes -/

/-- The ring registers of an SQ (R275, R297): writable while DISABLED, by PF0, the cores and the control complex. -/
def sqRegOp (o : Origin) (q off : Nat) (f : Sq → Sq) (s : State) : State :=
  if !originQueue o then logReg (sqOff q + off) (originReq o) s
  else s.modSq q (fun x => if x.state = .disabled then f x else x)

/-- The ring registers of a CQ (R275, R297). -/
def cqRegOp (o : Origin) (q off : Nat) (f : Cq → Cq) (s : State) : State :=
  if !originQueue o then logReg (cqOff q + off) (originReq o) s
  else s.modCq q (fun x => if x.state = .disabled then f x else x)

/-- A write of one word of an MSI-X entry: an unmasked vector whose pending bit is set sends its message (R284). -/
def msixOp (k w v : Nat) (s : State) : State :=
  let e := Sparse.read {} s.pcie.msix k
  let e : Msix :=
    match w with
    | 0 => { e with addr := BitVec.ofNat 64 (e.addr.toNat / 2 ^ 32 * 2 ^ 32 + v % 2 ^ 32) }
    | 1 => { e with addr := BitVec.ofNat 64 (e.addr.toNat % 2 ^ 32 + v % 2 ^ 32 * 2 ^ 32) }
    | 2 => { e with data := BitVec.ofNat 32 v }
    | _ => { e with mask := nbit v 0 }
  let s := { s with pcie := { s.pcie with msix := Sparse.write {} s.pcie.msix k e } }
  if !e.mask && KeySet.has s.pcie.pba k then
    let f := if k < 1024 then 0 else if k < 1088 then 33 else (k - 1088) / 30 + 1
    sendMsix (Fin.ofNat 34 f) (k - msixBase f) { s with pcie := { s.pcie with pba := Sparse.drop s.pcie.pba k } }
  else s

/-- A NIC ring after a write of one of its registers other than TAIL (R326). -/
def NicRing.write (r : NicRing) (w : Nat) (v : W64) : NicRing :=
  match w with
  | 0 => if r.state = .disabled then { r with l := BitVec.ofNat 4 (fld v 3 0), base := BitVec.ofNat 36 (fld v 47 12) } else r
  | 1 => { r with enable := bit v 0, state := if bit v 0 then .active else .disabled
                  acc := if bit v 0 then r.acc else [], accSums := bit v 0 && r.accSums
                  bufsz := if r.state = .disabled then BitVec.ofNat 2 (fld v 13 12) else r.bufsz }
  | 2 => { r with tail := BitVec.ofNat 32 (fld v 31 0) }
  | _ =>
    if r.state = .disabled then { r with ident := BitVec.ofNat 8 (fld v 7 0), file := BitVec.ofNat 36 (fld v 47 12) } else r

/-- Whether a NIC ring may be enabled (R275, R297, R326): its L is not reserved and it lies in visible HBM (LOG 32). -/
def NicRing.mayEnable (r : NicRing) : Bool := decide (r.l.toNat ≤ 12) && hbmVisibleRange (r.base.toNat * 4096) (16 * ringSize r.l)

/-- A write of a NIC ring's register but TAIL (R326), BAR0 offset `off` being its CTL's; an enable that is refused is logged (R297). -/
def nicRegOp (o : Origin) (off w : Nat) (v : W64) (r : NicRing) (put : NicRing → State) : State :=
  let x := r.write w v
  if x.state = .active ∧ r.state ≠ .active ∧ ¬x.mayEnable then
    logReg off (originReq o) (put { x with enable := false, state := .disabled })
  else put x

/-- A write kept for module flash (R375). -/
def queueStore (w : FlashStore) (s : State) : State := { s with flash := { s.flash with stores := s.flash.stores ++ [w] } }

/-- A write of HBM_Ss_SCRUB (R213): a PERIOD outside 6 to 96 leaves PERIOD unchanged. -/
def scrubOp (t : Nat) (v : W64) (s : State) : State :=
  s.modStack t (fun x => { x with
    period := if 6 ≤ fld v 7 0 ∧ fld v 7 0 ≤ 96 then BitVec.ofNat 8 (fld v 7 0) else x.period, agEnable := bit v 8 })

/-- A write of NET_UDP (R325). -/
def udpOp (v : W64) (s : State) : State :=
  { s with net := { s.net with
      port := BitVec.ofNat 16 (fld v 15 0)
      maxpay := if fld v 17 16 = 3 then s.net.maxpay else BitVec.ofNat 2 (fld v 17 16)
      vlanen := bit v 18, vlan := BitVec.ofNat 12 (fld v 30 19), dscp := BitVec.ofNat 24 (fld v 55 32) } }

/-- A write of NET_NODE (R314): until the ID locks. -/
def nodeOp (v : W64) (s : State) : State :=
  if s.net.nodeLock then s
  else queueStore (.nodeId (BitVec.ofNat 20 (fld v 19 0)))
    { s with net := { s.net with nodeId := BitVec.ofNat 20 (fld v 19 0) } }

/-- A write of GLB_D2D_PROFILE (R16): 0b11 is ignored. -/
def profileOp (v : W64) (s : State) : State :=
  if fld v 1 0 = 3 then s
  else queueStore (.d2d (BitVec.ofNat 2 (fld v 1 0))) { s with glb := { s.glb with d2dNext := BitVec.ofNat 2 (fld v 1 0) } }

/-- A write of NET_QROLE (R310). -/
def qroleOp (v : W64) (s : State) : State :=
  queueStore (.qrole (BitVec.ofNat 32 (fld v 31 0))) { s with net := { s.net with qroleNext := BitVec.ofNat 32 (fld v 31 0) } }

/-- A write of RAS_ROUTEk (R392). -/
def routeOp (k : Nat) (v : W64) (s : State) : State :=
  let r : Route :=
    { pf0en := bit v 0, pf0vec := BitVec.ofNat 10 (fld v 10 1), pf1en := bit v 11, pf1vec := BitVec.ofNat 6 (fld v 17 12),
      imsicen := bit v 18, ident := BitVec.ofNat 8 (fld v 26 19), file := BitVec.ofNat 36 (fld v 63 28) }
  { s with ras := { s.ras with route := Sparse.write {} s.ras.route k r } }

/-- A write of SYNC_CTXc_ARMa_MSI (R264), through the signal page (R263). -/
def armMsiOp (o : Origin) (c a : Nat) (v : W64) (s : State) : State :=
  if pageReach o c s then
    s.modCtx c (fun x =>
      let arm := Sparse.read {} x.arms a
      { x with arms := Sparse.write {} x.arms a { arm with
          ident := BitVec.ofNat 8 (fld v 7 0), file := BitVec.ofNat 36 (fld v 47 12) } })
  else logReg (sigPage c + 0x108 + 16 * a) (originReq o) s

/-- A write of four bytes of the IEEE 1500 shift buffer (R216). -/
def p1500BufOp (o : Origin) (t w : Nat) (v : W64) (s : State) : State :=
  if !s.lcService then logReg (hbmOff t + 0x2100 + 4 * w) (originReq o) s
  else s.modStack t (fun x => { x with shift := Mem.setBytes x.shift (4 * w) (toBytes v.toNat 4) })

/-- A write of a whole register by an origin that reaches it (R7). Read-only registers ignore it. -/
def regStore (o : Origin) (v : W64) (s : State) : RegId → State
  | .d2dProfile => profileOp v s
  | .glbReset => resetWriteOp o v .good s
  | .drvAccept h => drvAcceptOp o h v s
  | .contactDrv => contactDrvOp o v s
  | .contactCtx c => adoptOp o c v s
  | .satLimit c => s.modCtx c (fun x => { x with limit := BitVec.ofNat 15 (fld v 14 0) })
  | .sqRing q => sqRegOp o q 0 (fun x => { x with
      l := BitVec.ofNat 4 (fld v 3 0), base := BitVec.ofNat 36 (fld v 47 12) }) s
  | .sqCtl q => sqCtlOp o q v s
  | .sqPos q => sqRegOp o q 16 (fun x => { x with
      head := BitVec.ofNat 32 (fld v 31 0), nextSeq := BitVec.ofNat 32 (fld v 63 32) }) s
  | .cqRing q => cqRegOp o q 0 (fun x => { x with
      l := BitVec.ofNat 4 (fld v 3 0), base := BitVec.ofNat 36 (fld v 47 12) }) s
  | .cqCtl q => cqCtlOp o q v s
  | .cqPos q => cqRegOp o q 16 (fun x => { x with
      tail := BitVec.ofNat 32 (fld v 31 0), head := BitVec.ofNat 32 (fld v 31 0) }) s
  | .cqMsi q => cqRegOp o q 24 (fun x => { x with
      ident := BitVec.ofNat 8 (fld v 7 0), file := BitVec.ofNat 36 (fld v 47 12) }) s
  | .msix k w => msixOp k w v.toNat s
  | .pwrInput => if bit v 47 then
      { s with pwr := { s.pwr with lastV := false }, aux := { s.aux with seqUnack := false } } else s
  | .pwrCap => pwrCapOp o v s
  | .pwrState => { s with pwr := { s.pwr with unmetEv := s.pwr.unmetEv && !bit v 33 } }
  | .clkArr => clkArrOp o v s
  | .clkSrv k => clkSrvOp o k (v.toNat % 2 ^ 32) s
  | .therm x => thermWriteOp x v.toNat s
  | .rasRoute k => routeOp k v s
  | .objFault c => if bit v 63 then s.modCtx c (fun x => { x with objFault := setBit x.objFault 63 false }) else s
  | .sig c => sigWriteOp o c v s
  | .arm c a => armWriteOp o c a v s
  | .armMsi c a => armMsiOp o c a v s
  | .objVal p => objValWriteOp o p (v.setWidth 32) s
  | .xFault c => if bit v 63 then s.modCtx c (fun x => { x with fault := setBit x.fault 63 false }) else s
  | .winFault => if bit v 63 then { s with net := { s.net with winFault := setBit s.net.winFault 63 false } } else s
  | .winRange i => winRangeOp o i v s
  | .winCtl i => winCtlOp o i v s
  | .imsic key => imsicOp o (if key % 4 = 0 then 0x640000 + 0x1000 * (key / 4)
      else 0x670000 + 0x3000 * (key / 4) + 0x1000 * (key % 4 - 1)) key (v.toNat % 2 ^ 32) s
  | .qrole => qroleOp v s
  | .node => nodeOp v s
  | .udp => udpOp v s
  | .addrtab => addrtabOp v s
  | .xport => xportOp v s
  | .nicTx r w => if w = 2 then nicTailOp r v s else nicRegOp o (0x710008 + 0x20 * r) w v (s.nicTx r) (s.setNicTx r)
  | .nicRx r w => nicRegOp o (0x711008 + 0x20 * r) w v (s.nicRx r) (s.setNicRx r)
  | .ecc t => eccWriteOp t v s
  | .scrub t => scrubOp t v s
  | .region t b => regionWriteOp o t b (v.setWidth 32) s
  | .tgenCtl t c => tgenCtlOp o t c v s
  | .tgenStat t c => s.setTgen t c { s.tgen t c with done := (s.tgen t c).done && !bit v 1 }
  | .p1500 t => p1500Op o t (v.setWidth 32) s
  | .p1500Buf t w => p1500BufOp o t w v s
  | .satcnt t => satcntOp t v s
  | .pmc x k => pmcOp o x k v s
  | .pmctl x => pmctlOp x v.toNat s
  | .negCtl => negWriteOp v s
  | .sqTail q => sqTailOp o q (v.setWidth 32) s
  | .cqHead q => cqHeadOp o q (v.setWidth 32) s
  | .dieId _ | .dieFeat _ _ | .fwMin | .resetCause | .glbFence | .ctxExposed | .devFeat _ | .drvStatus | .contactHdr
  | .funcState _ | .pba _ _ | .pwrGroup | .rasCtl | .rasLog _ _ | .secLc | .secNonce | .secDevid | .secFw | .objTable _
  | .xRoot _ | .quadStatus _ | .hbmStatus _ | .errAddr _ | .d2dRole _ | .shutter _ | .tileAvail _ | .repair _ _
  | .tgeFault _ | .telRec _ => s

/-- Whether an origin's writes reach a register at all (R271): PF1's GLB mirror is read-only. -/
def regWritable (o : Origin) (off : Nat) : Bool := o != .pf1 || decide (0x100000 ≤ off)

/-- A lower half held until its upper half is written (R7). -/
def holdHalf (off : Nat) (v : W32) (s : State) : State :=
  { s with glb := { s.glb with held := Sparse.write 0 s.glb.held off v } }

/-- Whether an origin may write a register that only some may (R263, R275, R353, R373, R405). -/
def regMay (o : Origin) (s : State) : RegId → Bool
  | .sqRing _ | .sqCtl _ | .sqPos _ | .cqRing _ | .cqCtl _ | .cqPos _ | .cqMsi _ | .contactDrv | .contactCtx _ => originQueue o
  | .glbReset => originReset o
  | .pwrCap | .clkArr => originPwr o
  | .sig c | .arm c _ | .armMsi c _ => pageReach o c s
  | _ => true

/-- A 32-bit write at an aligned offset (R7): the lower half of a wide register is held, its upper half acts with it. -/
def regWrite4 (o : Origin) (off : Nat) (v : W32) (s : State) : State :=
  match regOf s o off with
  | some (id, at_) =>
    if id.wide && regMay o s id then holdHalf at_ v s else regStore o (v.setWidth 64) s id
  | none =>
    match (if off % 8 = 4 then regOf s o (off - 4) else none) with
    | some (id, at_) => if id.wide then regStore o (v ++ Sparse.read (0 : W32) s.glb.held at_) s id else s
    | none => s

/-- A write of 4 or 8 bytes at an offset of register space (R7): misaligned, or of another width, it is discarded and logged; at an
offset that no register occupies it is discarded (R10). -/
def regWrite (o : Origin) (off n : Nat) (v : W64) (s : State) : State :=
  if !((n = 4 ∨ n = 8) ∧ off % n = 0) then logReg off (originReq o) s
  else if !regWritable o off then s
  else if n = 4 then regWrite4 o off (v.setWidth 32) s
  else
    match regOf s o off with
    | some (id, _) =>
      if id.wide then regStore o v s id
      else regWrite4 o (off + 4) (BitVec.ofNat 32 (fld v 63 32)) (regWrite4 o off (v.setWidth 32) s)
    | none => regWrite4 o (off + 4) (BitVec.ofNat 32 (fld v 63 32)) (regWrite4 o off (v.setWidth 32) s)

/-- REGISTER_WRITE (R7). -/
def execRegisterWrite (o : Origin) (off bytes : Nat) (v : W64) (s : State) : Host.Outcome State Fault Refusal :=
  .next (whenServed (regWrite o off bytes v) s)

end Sys2Proof.Machine
end

