-- ==== Sys2Proof/Machine/HubDma.lean ====
section
/-! DEFINITION. Accesses of the engines that may reach register space (R7, R192), and the transfers of the hub's DMA engines (R287). -/

namespace Sys2Proof.Machine

/-! ### Register space -/

/-- Whether an access has a width and an alignment that registers take (R7). -/
def regShape (off n : Nat) : Bool := (n == 4 || n == 8) && off % n == 0

/-- A read by an engine: 4 or 8 aligned bytes of register space are one read of its registers; any other access of it is discarded and
logged (R7, LOG 152). -/
def busRead (o : Origin) (p : Port) (pa n : Nat) (s : State) : ReadRes × State :=
  match paKind pa with
  | .regs off => if regShape off n then (⟨clean (toBytes (regRead s o off n) n), {}⟩, s) else memRead p pa n s
  | _ => memRead p pa n s

/-- A write by an engine: 4 or 8 aligned bytes of register space are one write of its registers (R7, LOG 152). -/
def busWrite (o : Origin) (p : Port) (pa : Nat) (data : List PB) (s : State) : Met × State :=
  match paKind pa with
  | .regs off =>
    if regShape off data.length then ({}, regWrite o off data.length (BitVec.ofNat 64 (ofBytes (plain data))) s)
    else memWrite p pa data s
  | _ => memWrite p pa data s

/-! ### The hub's transfers -/

/-- A range read in pieces. -/
def readXlated (ctx : Nat) (ps : List XPiece) (s : State) : ReadRes × State :=
  ps.foldl (fun (acc : ReadRes × State) p =>
    let r := busRead .hub (enginePort acc.2 ctx p.coh) p.pa p.len acc.2
    (⟨acc.1.data ++ r.1.data, acc.1.met.and r.1.met⟩, r.2)) ((⟨[], {}⟩ : ReadRes), s)

/-- A range written in pieces. -/
def writeXlated (ctx : Nat) (ps : List XPiece) (data : List PB) (s : State) : Met × State :=
  ps.foldl (fun (acc : Met × State) p =>
    let w := busWrite .hub (enginePort acc.2 ctx p.coh) p.pa ((data.drop p.off).take p.len) acc.2
    (acc.1.and w.1, w.2)) (({} : Met), s)

/-- Whether a physical address lies in some piece. -/
def inPieces (ps : List XPiece) (pa : Nat) : Bool := ps.any (fun p => decide (p.pa ≤ pa) && decide (pa < p.pa + p.len))

/-- Bytes for destination pieces of which those that are also source are unspecified (R287): free values there. -/
def mixOverlap (src dst : List XPiece) (salt : Nat) (data : List PB) : List PB :=
  dst.flatMap (fun p =>
    ((data.drop p.off).take p.len).mapIdx (fun i b =>
      if inPieces src (p.pa + i) then ((Config.freeBits salt (p.off + i)).setWidth 8, b.2) else b))

/-- The end of a copy: its status from what it met and from the poison it wrote. -/
def dmaEnd (q n : Nat) (m : Met) (data : List PB) (s : State) : State :=
  let st := metStatus { m with poison := m.poison || anyPoison data }
  completeCmd q n st.1 st.2 0 s

/-- COPY's transfer (R287). -/
def dmaCopy (q n : Nat) (c : Cmd) (s : State) : State :=
  let len := leAt c.bytes 32 8
  let a := xlatRange .hub c.ctx .load false (leAt c.bytes 16 8) len s
  let b := xlatRange .hub c.ctx .store true (leAt c.bytes 24 8) len a.2
  match a.1.2, b.1.2 with
  | none, none =>
    let r := readXlated c.ctx a.1.1 b.2
    let past := b.1.1.any (fun p => a.1.1.any (fun x => overlap p.pa p.len x.pa x.len))
    let data := if past then mixOverlap a.1.1 b.1.1 r.2.free r.1.data else r.1.data
    let w := writeXlated c.ctx b.1.1 data (if past then r.2.took else r.2)
    dmaEnd q n (r.1.met.and w.1) data (capture 0 (leAt c.bytes 24 8) (plain data) (lastStrict b.2.out.length w.2))
  | x, y =>
    let st := worse (match x with | some e => xresStatus e | none => (.ok, 0)) (match y with | some e => xresStatus e | none => (.ok, 0))
    completeCmd q n st.1 st.2 0 b.2

/-- The transfer of WRITE_INLINE and FILL (R287). -/
def dmaWrite (q n : Nat) (c : Cmd) (va : Nat) (data : List Byte) (s : State) : State :=
  let b := xlatRange .hub c.ctx .store true va data.length s
  match b.1.2 with
  | none => let w := writeXlated c.ctx b.1.1 (clean data) b.2; dmaEnd q n w.1 [] (capture 0 va data (lastStrict b.2.out.length w.2))
  | some e => let st := xresStatus e; completeCmd q n st.1 st.2 0 b.2

/-- The bytes of a pattern repeated. -/
def patternBytes (pat : List Byte) (len : Nat) : List Byte := (List.range len).map (fun i => pat.getD (i % pat.length) 0)

/-- REDUCE_COPY's transfer (R206, R287): refused before anything is written where any part of its destination does not translate to HBM. -/
def dmaReduce (q n : Nat) (c : Cmd) (s : State) : State :=
  let len := leAt c.bytes 32 8
  let f := leAt c.bytes 40 1
  let a := xlatRange .hub c.ctx .load false (leAt c.bytes 16 8) len s
  let b := xlatRange .hub c.ctx .reduction true (leAt c.bytes 24 8) len a.2
  match redOf (f % 4) (f / 4 % 8) with
  | none => illegalCmd q n 0x02 b.2
  | some (op, fmt) =>
    match a.1.2, b.1.2 with
    | none, none =>
      if b.1.1.any (fun p => !hbmVisible p.pa) then illegalCmd q n 0x02 b.2
      else
        let r := readXlated c.ctx a.1.1 b.2
        let w := b.1.1.foldl (fun (acc : Met × State) p =>
          let w := memReduce (enginePort acc.2 c.ctx p.coh) op fmt p.pa ((r.1.data.drop p.off).take p.len) acc.2
          (acc.1.and w.1, w.2)) (({} : Met), r.2)
        dmaEnd q n (r.1.met.and w.1) [] w.2
    | _, some _ => illegalCmd q n 0x02 b.2
    | some e, none =>
      if b.1.1.any (fun p => !hbmVisible p.pa) then illegalCmd q n 0x02 b.2
      else let st := xresStatus e; completeCmd q n st.1 st.2 0 b.2

/-- A running command's transfer, by its opcode. -/
def dmaRun (q n : Nat) (s : State) : State :=
  match startedCmd s q n with
  | none => s
  | some c =>
    if c.phase = .running then
      match c.opc with
      | 0x20 => dmaCopy q n c s
      | 0x21 => dmaWrite q n c (leAt c.bytes 16 8) ((c.bytes.drop 64).take (leAt c.bytes 24 4)) s
      | 0x22 => dmaWrite q n c (leAt c.bytes 16 8) (patternBytes ((c.bytes.drop 24).take 8) (leAt c.bytes 32 8)) s
      | 0x23 => dmaReduce q n c s
      | _ => s
    else s

/-- HUB_DMA_COMPLETE (R287). -/
def execHubDmaComplete (q : QId) (n : Nat) (hw : List HostByte) (s : State) : Host.Outcome State Fault Refusal :=
  .next (whenServed (fun s => dmaRun q.val n (hostStores hw s)) s)

end Sys2Proof.Machine
end

