-- ==== Sys2Proof/Machine/Descr.lean ====
section
/-! DEFINITION. The descriptors of the group-wide instructions (R179-R187): their fields, and the checks made of them at issue. -/

namespace Sys2Proof.Machine

/-- A refusal of a descriptor: status and DETAIL. -/
abbrev Bad := Status × Nat

/-- A reserved value, and a value out of range, as DETAIL of ST_ILLEGAL (R180, R295). -/
def badReserved : Bad := (.illegal, 0x01)
def badRange : Bad := (.illegal, 0x02)

/-- The first of a list of conditions that holds. -/
def firstBad : List (Bool × Bad) → Option Bad
  | [] => none
  | (c, b) :: rest => if c then some b else firstBad rest

/-- The end of a tile's scratchpad. -/
def spadEnd : Nat := 2 ^ 23

/-- Whether two sets of byte ranges (offset, length) meet. -/
def rangesMeet (a b : List (Nat × Nat)) : Bool := a.any (fun x => b.any (fun y => overlap x.1 x.2 y.1 y.2))

/-- SIGREF and SIGINC of a descriptor (R181), with their check. -/
def sigAt (d : List Byte) (v : Bool) (off : Nat) : Option SigRef :=
  if v then some ⟨BitVec.ofNat 64 (leAt d off 8), BitVec.ofNat 32 (leAt d (off + 8) 4)⟩ else none

def sigBad (d : List Byte) (v : Bool) (off : Nat) : Bool :=
  if v then nfld (leAt d off 8) 31 20 != 0 || refOf (leAt d off 8) == .reserved
  else leAt d off 12 != 0

/-! ### Formats -/

/-- Bytes of a tile's element data D (R72, R84). -/
def tileData (c : Nat) : Nat := 2048 * fmtBits c

/-- Bytes of a tile's slot (R84). -/
def slotSize (c : Nat) : Nat := tileData c + (if isMx c then 512 else 0)

/-- The wide format of a first-choice format (R96). -/
def wideFmt : Nat → Option Nat
  | 0x02 => some 0x00 | 0x03 => some 0x00 | 0x04 => some 0x06 | 0x05 => some 0x06 | _ => none

/-- Whether an operand format is permitted in an ARITH mode (R34). -/
def operandOk (arith c : Nat) : Bool :=
  match arith with
  | 0 => decide (c ≤ 0x0D)
  | 1 => decide (c ≤ 0x0E)
  | _ => decide (c ≤ 0x0F)

/-- Whether a result format is permitted (R34). -/
def resultOk (arith : Nat) (intPath table : Bool) (c : Nat) : Bool :=
  match arith with
  | 0 =>
    if intPath then c == 0x10 || (table && (decide (c ≤ 0x06) || c == 0x0E || c == 0x11))
    else decide (c ≤ 0x06) || c == 0x0E || c == 0x11
  | 1 => c == 0x0E || c == 0x11
  | _ => c == 0x0F

/-- Whether an operation takes the integer path (R34, R83). -/
def MxOp.intPath (o : MxOp) : Bool := o.arith == 0 && intClass o.fmtA && intClass o.fmtB

/-! ### Matrix descriptor (R182, R183) -/

/-- A region sub-descriptor. -/
def regionAt (d : List Byte) (off : Nat) : Region :=
  let f := leAt d (off + 12) 4
  ⟨leAt d off 4, leAt d (off + 4) 4, leAt d (off + 8) 4, nbit f 0, nbit f 1, nbit f 2⟩

/-- Blocks of 128 of an extent. -/
def blocks128 (n : Nat) : Nat := ceilDiv n 128

def MxOp.mt (o : MxOp) : Nat := blocks128 o.m
def MxOp.nt (o : MxOp) : Nat := blocks128 o.n
def MxOp.kt (o : MxOp) : Nat := blocks128 o.k

/-- The lists and tag arrays of the regions of an operation (R82, R183). -/
def MxOp.listRanges (o : MxOp) : List (Nat × Nat) :=
  [(o.a, o.mt * o.kt), (o.b, o.nt * o.kt), (o.c, o.mt * o.nt)].flatMap (fun e =>
    (if e.1.list then [(e.1.base, 4 * e.2)] else []) ++ (if e.1.tagv then [(e.1.tags, 2 * e.2)] else []))

/-- The fields of an MX descriptor. -/
def mxFields (kid uid : Nat) (d : List Byte) : MxOp :=
  let w := leAt d 0 4
  let v := leAt d 4 4
  { uid := uid, kid := kid, m := nfld w 9 0 + 1, n := nfld w 19 10 + 1, k := nfld v 12 0 + 1, df := nfld w 21 20
    arith := nfld w 23 22, rnd := nfld w 25 24, acc := nbit w 26, fmtA := nfld v 17 13, fmtB := nfld v 22 18
    fmtC := nfld v 27 23, a := regionAt d 8, b := regionAt d 24, c := regionAt d 40
    tbl := if nbit w 30 then some (leAt d 56 4) else none, nout := nfld (leAt d 64 4) 6 0, outList := leAt d 60 4
    sideA := regionAt d 68, sideB := regionAt d 84, sig := sigAt d (nbit w 29) 104, hits := [], held := [], fmts := [] }

/-- An operation as its kernel's context takes it (R102): one in legacy saturation mode ignores WSLOT. -/
def mxOpOf (k : Kernel) (uid : Nat) (d : List Byte) : MxOp :=
  let o := mxFields k.kid uid d
  if k.legacy then { o with c := { o.c with wslot := false } } else o

/-- The checks of a region of `count` tiles, each of at least `slot` bytes (R73, R183); `isC` where WSLOT is defined. -/
def regionChecks (d : List Byte) (off : Nat) (r : Region) (count slot : Nat) (isC : Bool) : List (Bool × Bad) :=
  [(decide (8 ≤ leAt d (off + 12) 4), badReserved),
   (!isC && r.wslot, badReserved),
   (r.list && r.stride != 0, badReserved),
   (r.list && (r.base % 4 != 0 || decide (spadEnd < r.base + 4 * count)), badRange),
   (!r.list && (r.base % 256 != 0 || r.stride % 256 != 0 || decide (spadEnd < r.base + r.stride * (count - 1) + slot)), badRange),
   (r.tagv && (r.tags % 2 != 0 || decide (spadEnd < r.tags + 2 * count)), badRange)]

/-- The ranges of a strided region whose tiles all have one slot, with its tag array (R85). -/
def stridedRanges (r : Region) (count slot : Nat) : List (Nat × Nat) :=
  (List.range count).map (fun x => (r.base + x * r.stride, slot)) ++ (if r.tagv then [(r.tags, 2 * count)] else [])

/-- The slot that STRIDE of a C region must hold (R183). -/
def cSlot (o : MxOp) (fmt : Nat) : Nat := if o.c.wslot then 32768 else slotSize fmt

/-- Bytes that a C tile of a format may take (R84). -/
def wideSlot (o : MxOp) (fmt : Nat) : Nat := max (slotSize fmt) (if o.c.wslot then 32768 else 0)

/-- Whether a C region overlaps A or B as far as the issue can tell (R73): strided regions whose formats are known. -/
def mxOverlapAtIssue (o : MxOp) : Bool :=
  let known (r : Region) : Bool := !r.list && !r.tagv
  if o.c.list || o.tbl.isSome then false
  else
    let c := stridedRanges o.c (o.mt * o.nt) (wideSlot o o.fmtC)
    (known o.a && rangesMeet c (stridedRanges o.a (o.mt * o.kt) (slotSize o.fmtA))) ||
      (known o.b && rangesMeet c (stridedRanges o.b (o.nt * o.kt) (slotSize o.fmtB)))

/-- The smallest slot of an operand region: its format's, or of any format where tags decide. -/
def leastSlot (r : Region) (fmt : Nat) : Nat := if r.tagv then 8192 else slotSize fmt

/-- The checks of an MX descriptor at issue (R34, R59, R73, R90, R92, R180-R183), then of the features (R29, R404). -/
def mxChecks (d : List Byte) (o : MxOp) (feat : BitVec 8) : List (Bool × Bad) :=
  let w := leAt d 0 4
  let out := decide (0 < o.nout)
  let slotC := if o.tbl.isSome then (if o.c.wslot then 32768 else 16384) else wideSlot o o.fmtC
  [(nbit w 31 || nfld (leAt d 4 4) 31 28 != 0 || decide (128 ≤ leAt d 64 4), badReserved),
   (leAt d 100 4 != 0 || leAt d 116 12 != 0, badReserved),
   (sigBad d (nbit w 29) 104, badReserved),
   (o.df == 3 || o.arith == 3 || nfld w 28 27 == 3, badReserved),
   (!fmtKnown o.fmtA || !fmtKnown o.fmtB || (o.tbl.isNone && !fmtKnown o.fmtC), badReserved),
   (!operandOk o.arith o.fmtA || !operandOk o.arith o.fmtB, badRange),
   (o.tbl.isNone && !resultOk o.arith o.intPath false o.fmtC, badRange),
   (decide (64 < o.nout), badRange),
   (o.acc && o.tbl.isSome, badRange)] ++
  regionChecks d 8 o.a (o.mt * o.kt) (leastSlot o.a o.fmtA) false ++
  regionChecks d 24 o.b (o.nt * o.kt) (leastSlot o.b o.fmtB) false ++
  regionChecks d 40 o.c (o.mt * o.nt) slotC true ++
  [(!o.c.list && o.tbl.isNone && decide (o.c.stride < cSlot o o.fmtC), badRange),
   (!o.c.list && o.tbl.isSome && o.c.wslot && decide (o.c.stride < 32768), badRange),
   (match o.tbl with | some p => p % 16 != 0 || decide (spadEnd < p + 16 * o.n) | none => false, badRange),
   (out && decide (spadEnd < o.outList + 2 * o.nout), badRange),
   (out && (o.sideA.tagv || o.sideB.tagv), badReserved)] ++
  (if out then regionChecks d 68 o.sideA o.mt 32768 false ++ regionChecks d 84 o.sideB o.nt 32768 false else []) ++
  [(mxOverlapAtIssue o, badRange),
   (o.arith == 2 && !feat.getLsbD 0, (.feature, 0)),
   ((o.a.tagv || o.b.tagv || o.c.tagv || o.c.wslot) && !feat.getLsbD 1, (.feature, 1))]

/-! ### Vector descriptor (R184-R186) -/

/-- OP by group (R109, R185). -/
def vxBasic (op : Nat) : Bool := decide (op ≤ 0x11)
def vxSlow (op : Nat) : Bool :=
  decide (0x20 ≤ op ∧ op ≤ 0x25) || decide (0x28 ≤ op ∧ op ≤ 0x2B) || decide (0x30 ≤ op ∧ op ≤ 0x33)
def vxUpdate (op : Nat) : Bool := op == 0x40 || op == 0x41
def vxKnown (op : Nat) : Bool := vxBasic op || op == 0x12 || op == 0x13 || vxSlow op || vxUpdate op

/-- How many sources an operation uses (R185, R186). -/
def vxSources (op : Nat) : Nat :=
  match op with
  | 0x03 => 3 | 0x0C => 3 | 0x13 => 3 | 0x40 => 3
  | 0x06 => 1 | 0x07 => 1 | 0x12 => 1
  | 0x28 => 2 | 0x41 => 2
  | op => if decide (op ≤ 0x11) then 2 else 1

/-- A source sub-descriptor. -/
def vxSrcAt (d : List Byte) (off : Nat) : VxSrc :=
  let k := leAt d (off + 8) 4
  let f := nfld k 6 2
  match nfld k 1 0 with
  | 0 => .none
  | 1 => .stream (leAt d off 4) f
  | 2 => .periodic (leAt d off 4) f (nfld (leAt d (off + 12) 4) 14 0)
  | _ => .imm (BitVec.ofNat 64 (leAt d off 8)) f

/-- Format, base and elements read of a source in memory. -/
def VxSrc.stretch (x : VxSrc) (count : Nat) : Option (Nat × Nat × Nat) :=
  match x with
  | .none => Option.none
  | .stream b f => some (b, f, count)
  | .periodic b f p => some (b, f, min count p)
  | .imm _ _ => Option.none

def VxSrc.isNone : VxSrc → Bool
  | .none => true
  | _ => false

def VxSrc.fmt? : VxSrc → Option Nat
  | .none => Option.none
  | .stream _ f => some f
  | .periodic _ f _ => some f
  | .imm _ f => some f

def VxSrc.isStream : VxSrc → Bool
  | .stream _ _ => true
  | _ => false

/-- Bytes that n elements of a format take from a base; a block format's scales follow its tile's data (R84, LOG 70). -/
def streamBytes (f n : Nat) : List (Nat × Nat) :=
  (0, ceilDiv (n * fmtBits f) 8) :: (if isMx f then [(tileData f, ceilDiv n 32)] else [])

/-- The ranges of a stream at a base. -/
def streamRanges (base f n : Nat) : List (Nat × Nat) := (streamBytes f n).map (fun e => (base + e.1, e.2))

/-- Alignment of an element: its size, or a byte below one (R106). -/
def elemAlign (f : Nat) : Nat := max 1 (fmtBits f / 8)

/-- Whether a stream lies in the scratchpad and is aligned (R106). -/
def streamOk (base f n : Nat) : Bool :=
  base % (if isMx f then 1 else elemAlign f) == 0 && (streamRanges base f n).all (fun e => decide (e.1 + e.2 ≤ spadEnd))

/-- The ranges of a source. -/
def VxSrc.ranges (x : VxSrc) (count : Nat) : List (Nat × Nat) :=
  match x.stretch count with
  | some (b, f, n) => streamRanges b f n
  | Option.none => []

/-- The fields of a VX descriptor. -/
def vxFields (kid : Nat) (d : List Byte) : VxOp :=
  let w := leAt d 0 4
  let v := leAt d 4 4
  let df := leAt d 64 4
  let u := leAt d 100 4
  { kid := kid, op := nfld w 7 0, count := nfld w 21 8 + 1, cf := nfld w 26 22, rnd := nfld w 28 27, red := nfld v 3 0
    seg := nfld v 18 4, sig := sigAt d (nbit v 19) 80, nesterov := nbit v 20, rnd16 := nfld v 22 21, rnd8 := nfld v 24 23
    src0 := vxSrcAt d 8, src1 := vxSrcAt d 24, src2 := vxSrcAt d 40, dstBase := leAt d 56 4, dstFmt := nfld df 4 0
    dstTag := if nbit df 5 then some (leAt d 60 4) else none, dstWslot := nbit df 6, ruIn := leAt d 72 4, ruOut := leAt d 76 4
    updW := leAt d 92 4, updW8 := leAt d 96 4, w8Fmt := nfld u 4 0, w8Present := nbit u 5
    w8Tag := if nbit u 6 then some (leAt d 104 4) else none, w8Wslot := nbit u 7, param := leAt d 108 4
    ran := false, recs := [], recPoison := [], tags := [], hits := [] }

/-- An operation as its kernel's context takes it (R102): one in legacy saturation mode ignores WSLOT. -/
def vxOpOf (k : Kernel) (d : List Byte) : VxOp :=
  let o := vxFields k.kid d
  if k.legacy then { o with dstWslot := false, w8Wslot := false } else o

/-- Integer compute formats. -/
def cfInt (c : Nat) : Bool := c == 0x04 || c == 0x05 || c == 0x06 || c == 0x10

/-- Whether a source format may stand beside a compute format (R108): the list of R108 taken as complete (LOG 139). -/
def exactIn (f cf : Nat) : Bool :=
  f == cf ||
  ((f == 0x00 || f == 0x01) && (cf == 0x0E || cf == 0x0F)) ||
  (decide (0x02 ≤ f ∧ f ≤ 0x05) && (cf == 0x00 || cf == 0x01 || cf == 0x0E || cf == 0x0F)) ||
  ((f == 0x04 || f == 0x05) && cf == 0x06) ||
  (decide (0x04 ≤ f ∧ f ≤ 0x07) && (cf == 0x0E || cf == 0x10)) ||
  ((decide (0x04 ≤ f ∧ f ≤ 0x07) || f == 0x10) && cf == 0x0F)

/-- The 64-bit rate class (R109). -/
def class64 (f : Nat) : Bool := f == 0x0F || f == 0x11

/-- Bytes of a record of the reduction unit (R118). -/
def recordBytes (red : Nat) (wide : Bool) : Nat :=
  match red with
  | 8 => 4
  | 6 => if wide then 16 else 8
  | 7 => if wide then 16 else 8
  | _ => if wide then 8 else 4

/-- Segments of an operation (R118). -/
def VxOp.segLen (o : VxOp) : Nat := if o.seg = 0 then o.count else o.seg
def VxOp.segments (o : VxOp) : Nat := ceilDiv o.count o.segLen
def VxOp.wide (o : VxOp) : Bool := o.cf == 0x0F

/-- The ranges of the records of an operation. -/
def VxOp.recRange (o : VxOp) : List (Nat × Nat) :=
  if o.red = 0 then [] else [(o.ruOut, o.segments * recordBytes o.red o.wide)]

/-- The format of the records of an operation, where one format makes them up (R118). -/
def VxOp.recFormat (o : VxOp) : Option Nat :=
  if o.red = 6 then none else if o.red = 8 then some 0x10 else some (if o.wide then 0x0F else 0x0E)

/-- Whether the records overlap a stream of n elements in a way that R106 forbids. -/
def VxOp.recMeets (o : VxOp) (r : List (Nat × Nat)) (base f : Nat) : Bool :=
  rangesMeet o.recRange r && !(o.ruOut == base && o.recFormat == some f)

/-- The sources with the master W of an UPDATE (R121): ranges, base and format. -/
def VxOp.inputs (o : VxOp) : List (List (Nat × Nat) × Nat × Nat) :=
  ([o.src0, o.src1, o.src2].filterMap (fun x =>
    match x.stretch o.count with
    | some (b, f, n) => some (streamRanges b f n, b, f)
    | Option.none => Option.none)) ++
  (if vxUpdate o.op then [(streamRanges o.updW 0x0E o.count, o.updW, 0x0E)] else [])

/-- The destinations of an operation: base, format, tag array, WSLOT. -/
def VxOp.outputs (o : VxOp) : List (Nat × Nat × Option Nat × Bool) :=
  (if o.dstFmt = 0x1F then [] else [(o.dstBase, o.dstFmt, o.dstTag, o.dstWslot)]) ++
  (if vxUpdate o.op && o.w8Present then [(o.updW8, o.w8Fmt, o.w8Tag, o.w8Wslot)] else [])

/-- Whether a destination overlaps a source in a way that R106 forbids: its elements and scales in the first-choice format count (LOG 170). -/
def outputMeets (o : VxOp) (base f : Nat) : Bool :=
  o.inputs.any (fun i => rangesMeet (streamRanges base f o.count) i.1 && !(base == i.2.1 && f == i.2.2))

/-- The streams that an UPDATE writes in place, as base and format: W, M and, for ADAMW, V (R121). -/
def VxOp.masters (o : VxOp) : List (Nat × Nat) :=
  (o.updW, 0x0E) :: [o.src1, o.src2].filterMap (fun x => (x.stretch o.count).map (fun e => (e.1, e.2.1)))

/-- The checks of one destination (R106, R114, R115). A wide form that would reach past the scratchpad is refused at issue (LOG 140). -/
def outputChecks (o : VxOp) (x : Nat × Nat × Option Nat × Bool) : List (Bool × Bad) :=
  let f := x.2.1
  let block := isMx f || f == 0x07
  [(!fmtKnown f, badReserved),
   (block && (x.2.2.1.isNone || o.count % 32 != 0), badRange),
   (!streamOk x.1 f o.count, badRange),
   (match x.2.2.1 with | some t => t % 2 != 0 || decide (spadEnd < t + 2) | none => false, badRange),
   (match wideFmt f with
    | some w => x.2.2.1.isSome && x.2.2.2 && !(streamRanges x.1 w o.count).all (fun e => decide (e.1 + e.2 ≤ spadEnd))
    | none => false, badRange),
   (outputMeets o x.1 x.2.1, badRange)]

/-- The checks of one source that an operation uses, or does not (R105, R106, R108, R185). -/
def sourceChecks (o : VxOp) (d : List Byte) (off : Nat) (x : VxSrc) (used : Bool) : List (Bool × Bad) :=
  let k := leAt d (off + 8) 4
  let p := leAt d (off + 12) 4
  let any := o.op == 0x12 || o.op == 0x13
  [(used == x.isNone, badRange),
   (decide (128 ≤ k) || decide (32768 ≤ p), badReserved)] ++
  (match x with
   | .none => [(!fmtKnown (nfld k 6 2), badReserved)]
   | .stream b f =>
     [(!fmtKnown f, badReserved), (leAt d (off + 4) 4 != 0, badReserved), (!any && !exactIn f o.cf, badRange),
      (!streamOk b f o.count, badRange)]
   | .periodic b f q =>
     [(!fmtKnown f, badReserved), (leAt d (off + 4) 4 != 0, badReserved), (!any && !exactIn f o.cf, badRange),
      (q == 0 || decide (16384 < q), badRange), (!streamOk b f (min o.count q), badRange)]
   | .imm _ f => [(!fmtKnown f, badReserved), (!any && !exactIn f o.cf, badRange)])

/-- The checks of an UPDATE's operands (R121, R186). -/
def updateChecks (o : VxOp) (d : List Byte) : List (Bool × Bad) :=
  let moment (x : VxSrc) : Bool := x.isStream && (x.fmt? == some 0x0E || x.fmt? == some 0x00)
  let g := o.src0.fmt?
  [(decide (256 ≤ leAt d 100 4), badReserved),
   (!o.src0.isStream || !(g == some 0x00 || g == some 0x01 || g == some 0x02 || g == some 0x03), badRange),
   (!moment o.src1, badRange),
   (o.op == 0x40 && !moment o.src2, badRange),
   (!(o.dstFmt == 0x00 || o.dstFmt == 0x01), badRange),
   (o.dstTag.isSome, badRange),
   (!streamOk o.updW 0x0E o.count, badRange),
   (o.masters.any (fun y => outputMeets o y.1 y.2), badRange),
   (!fmtKnown o.w8Fmt, badReserved),
   (o.w8Present && !(o.w8Fmt == 0x02 || o.w8Fmt == 0x03 || o.w8Fmt == 0x04), badRange),
   (o.param % 64 != 0 || decide (spadEnd < o.param + 64), badRange)]

/-- The checks of a VX descriptor at issue (R105-R109, R113-R118, R121, R126, R180, R184-R186), then of the features (R29, R404). -/
def vxChecks (d : List Byte) (o : VxOp) (feat : BitVec 8) : List (Bool × Bad) :=
  let v := leAt d 4 4
  let n := vxSources o.op
  let upd := vxUpdate o.op
  let fmts := [some o.cf, o.src0.fmt?, o.src1.fmt?, o.src2.fmt?, (if o.dstFmt = 0x1F then none else some o.dstFmt)]
  let c64 := fmts.any (fun f => match f with | some f => class64 f | none => false)
  [(decide (2 ^ 29 ≤ leAt d 0 4) || decide (2 ^ 25 ≤ v), badReserved),
   (leAt d 112 16 != 0 || leAt d 68 4 != 0 || decide (128 ≤ leAt d 64 4), badReserved),
   (sigBad d (nbit v 19) 80, badReserved),
   (!vxKnown o.op, badReserved),
   (!(o.cf == 0 || o.cf == 1 || decide (4 ≤ o.cf ∧ o.cf ≤ 6) || o.cf == 0x0E || o.cf == 0x0F || o.cf == 0x10), badRange),
   (decide (9 ≤ o.red), badReserved),
   (decide (16384 < o.seg), badRange),
   (o.nesterov && o.op != 0x41, badReserved),
   (!upd && (o.rnd16 != 0 || o.rnd8 != 0 || leAt d 92 20 != 0), badReserved),
   (o.dstFmt != 0x1F && !fmtKnown o.dstFmt, badReserved)] ++
  sourceChecks o d 8 o.src0 (decide (0 < n)) ++ sourceChecks o d 24 o.src1 (decide (1 < n)) ++
  sourceChecks o d 40 o.src2 (decide (2 < n)) ++
  [(decide (0x0D ≤ o.op ∧ o.op ≤ 0x11) &&
      (!cfInt o.cf || (o.dstFmt != 0x1F && fmtBits o.dstFmt != fmtBits o.cf)), badRange),
   (vxSlow o.op && cfInt o.cf, badRange),
   (c64 && (o.op == 0x21 || o.op == 0x23 || o.op == 0x24 || o.op == 0x25 || decide (0x30 ≤ o.op)), badRange)] ++
  (o.outputs.flatMap (outputChecks o)) ++ (if upd then updateChecks o d else []) ++
  [(o.ruOut % 8 != 0 || decide (spadEnd ≤ o.ruOut) || o.recRange.any (fun e => decide (spadEnd < e.1 + e.2)), badRange),
   (o.ruIn % 8 != 0 || decide (spadEnd ≤ o.ruIn) ||
      (o.red == 7 && decide (spadEnd < o.ruIn + o.segments * recordBytes 7 o.wide)), badRange),
   (o.inputs.any (fun i => o.recMeets i.1 i.2.1 i.2.2) ||
      o.outputs.any (fun x => o.recMeets (streamRanges x.1 x.2.1 o.count) x.1 x.2.1), badRange),
   ((o.dstTag.isSome || o.dstWslot || (upd && (o.w8Tag.isSome || o.w8Wslot))) && !feat.getLsbD 1, (.feature, 1))]

/-! ### DMA descriptor (R187) -/

/-- The fields of a DX descriptor. -/
def dxFields (kid : Nat) (kind : DxKind) (d : List Byte) : DxOp :=
  let c := leAt d 16 4
  let dims := nfld c 3 2
  { kid := kid, kind := kind, src := BitVec.ofNat 64 (leAt d 0 8), dst := BitVec.ofNat 64 (leAt d 8 8), ssp := nbit c 0
    dsp := nbit c 1, redOp := nfld c 5 4, redFmt := nfld c 8 6, len0 := leAt d 20 4
    count1 := if dims = 0 then 1 else leAt d 24 4, count2 := if dims = 2 then leAt d 28 4 else 1
    sstr1 := signed 32 (leAt d 32 4), sstr2 := signed 32 (leAt d 36 4), dstr1 := signed 32 (leAt d 40 4)
    dstr2 := signed 32 (leAt d 44 4), sig := sigAt d (nbit c 9) 48, running := false }

/-- Lowest and highest first byte of the rows of a side of a transfer (R188). -/
def dxSpan (base : Nat) (s1 s2 : Int) (o : DxOp) : Int × Int :=
  let a := s1 * ((o.count1 : Int) - 1)
  let b := s2 * ((o.count2 : Int) - 1)
  let lo := (if a < 0 then a else 0) + (if b < 0 then b else 0)
  let hi := (if a < 0 then 0 else a) + (if b < 0 then 0 else b)
  ((base : Int) + lo, (base : Int) + hi)

/-- Whether a side of a transfer lies in the scratchpad (R188). -/
def dxInSpad (base : Nat) (s1 s2 : Int) (o : DxOp) : Bool :=
  let p := dxSpan base s1 s2 o
  decide (0 ≤ p.1) && decide (p.2 + o.len0 ≤ (spadEnd : Nat))

/-- Operation and format of a bulk reduction that R189 and R206 permit: min and max of integers only. -/
def dxRedOf (op fmt : Nat) : Option (RedOp × RedFmt) :=
  match redOpOf op, redFmtOf fmt with
  | some o, some f => if o != .add && redFmtFloat f then none else some (o, f)
  | _, _ => none

/-- The checks of a DX descriptor at issue (R180, R187-R189). -/
def dxChecks (d : List Byte) (o : DxOp) : List (Bool × Bad) :=
  let c := leAt d 16 4
  let dims := nfld c 3 2
  let red := o.kind == .red
  let fill := o.kind == .fill
  [(decide (1024 ≤ c) || dims == 3 || leAt d 60 4 != 0, badReserved),
   (sigBad d (nbit c 9) 48, badReserved),
   (red && ((redOpOf o.redOp).isNone || (redFmtOf o.redFmt).isNone), badReserved),
   (dims == 0 && (leAt d 24 4 != 0 || leAt d 32 4 != 0 || leAt d 40 4 != 0), badReserved),
   (dims != 2 && (leAt d 28 4 != 0 || leAt d 36 4 != 0 || leAt d 44 4 != 0), badReserved),
   (fill && (leAt d 32 4 != 0 || leAt d 36 4 != 0), badReserved),
   (o.len0 == 0 || decide (2 ^ 24 < o.len0), badRange),
   (o.count1 == 0 || decide (65536 < o.count1) || o.count2 == 0 || decide (65536 < o.count2), badRange),
   (!fill && o.ssp && !dxInSpad o.src.toNat o.sstr1 o.sstr2 o, badRange),
   (o.dsp && !dxInSpad o.dst.toNat o.dstr1 o.dstr2 o, badRange),
   (red && (o.dsp || (dxRedOf o.redOp o.redFmt).isNone), badRange),
   (red && (o.dst.toNat % 256 != 0 || o.len0 % 256 != 0 || leAt d 40 4 % 256 != 0 || leAt d 44 4 % 256 != 0), badRange)]

end Sys2Proof.Machine
end

