-- ==== Sys2Proof/Machine/Elem.lean ====
section
/-! DEFINITION. The elementary functions of R116 to 200 bits and more, and the values within the manual's error bounds: what an engine
computes is a free value inside its error (R54, R95, R116), taken from an opaque candidate where the candidate lies inside, and the
conversion to a format rounds that value (R49-R52). -/

namespace Sys2Proof.Machine

/-- Fixed-point places of the series below. -/
def fxP : Nat := 240

/-- ln 2, π/2, 2/√π and 1/√2 in fixed point. -/
def fxLn2 : Int := 1224685061431752149387114016819916847747660333428801675508466606222838698
def fxHalfPi : Int := 2775356879362230867616538564893568898417613047244204940481354912704001575
def fxErf : Int := 1993673419339784460258911580658175606905582979199981906769926743717419468
def fxRoot : Int := 1249349540824342767601794457137750676078909797229663651456021936046703411

/-- One in fixed point. -/
def fxOne : Int := 2 ^ fxP

/-- A value in fixed point, rounded down. -/
def XR.fix : XR → Int
  | .fin m e d => (m * 2 ^ (e + fxP).toNat) / (((d : Int) + 1) * 2 ^ (-(e + fxP)).toNat)
  | _ => 0

/-- A fixed-point number as a value. -/
def ofFix (n : Int) : XR := .fin n (-fxP) 0

/-- Product in fixed point. -/
def fxMul (a b : Int) : Int := a * b / fxOne

/-- Σ rⁿ/n! from term k on, the term before it being t. -/
def expSum (r : Int) : Nat → Nat → Int → Int
  | 0, _, _ => 0
  | n + 1, k, t => let t' := fxMul t r / (k : Int); t' + expSum r n (k + 1) t'

/-- eˣ for a finite x. -/
def fxExp (x : XR) : XR :=
  if (XR.int 32768).le x then .dy 1 40000
  else if x.le (.int (-32768)) then .dy 1 (-40000)
  else
    let f := x.fix
    let n := f / fxLn2
    (ofFix (fxOne + expSum (f - n * fxLn2) 60 1 fxOne)).mul (.dy 1 n)

/-- 2ˣ for a finite x. -/
def fxExp2 (x : XR) : XR :=
  if (XR.int 32768).le x then .dy 1 40000
  else if x.le (.int (-32768)) then .dy 1 (-40000)
  else
    let f := x.fix
    let n := f / fxOne
    (ofFix (fxOne + expSum (fxMul (f - n * fxOne) fxLn2) 60 1 fxOne)).mul (.dy 1 n)

/-- Σ z^(2i+1)/(2i+1) from 2i+1 = k on, t being z^k. -/
def atanhSum (z2 : Int) : Nat → Nat → Int → Int
  | 0, _, _ => 0
  | n + 1, k, t => t / (k : Int) + atanhSum z2 n (k + 2) (fxMul t z2)

/-- ln of a finite x > 0. -/
def fxLn (x : XR) : XR :=
  let k := x.log2
  let m := x.mul (.dy 1 (-k))
  let z := ((m.sub .one).div (m.add .one)).fix
  ofFix (2 * atanhSum (fxMul z z) 90 1 z + k * fxLn2)

/-- log2 of a finite x > 0. -/
def fxLog2 (x : XR) : XR := (fxLn x).div (ofFix fxLn2)

/-- tanh of a finite x. -/
def fxTanh (x : XR) : XR :=
  if x.abs.lt (.dy 1 (-40)) then x.sub ((x.mul (x.mul x)).div (.int 3))
  else
    let e := fxExp (x.mul (.int 2))
    (e.sub .one).div (e.add .one)

/-- 1/(1 + e^−x) of a finite x. -/
def fxSigmoid (x : XR) : XR := XR.one.div (XR.one.add (fxExp x.neg))

/-- Σ (−1)ⁱ t r^2i ... : the alternating series of sine and cosine from divisor k on. -/
def sinSum (r2 : Int) : Nat → Nat → Int → Int
  | 0, _, _ => 0
  | n + 1, k, t => t + sinSum r2 n (k + 2) (-(fxMul t r2 / ((k : Int) * (k + 1))))

/-- sin of a finite x, `q` quarter turns on. -/
def fxSin (q : Int) (x : XR) : XR :=
  let f := x.fix
  let n := f / fxHalfPi
  let r := f - n * fxHalfPi
  let s := if (n + q) % 2 = 0 then sinSum (fxMul r r) 40 2 r else sinSum (fxMul r r) 40 1 fxOne
  ofFix (if (n + q) % 4 < 2 then s else -s)

/-- Σ 2ⁿ x^(2n+1)/(2n+1)!! from divisor k on. -/
def erfSum (x2 : Int) : Nat → Nat → Int → Int
  | 0, _, _ => 0
  | n + 1, k, t => t + erfSum x2 n (k + 2) (2 * fxMul t x2 / (k : Int))

/-- erf of a finite x. -/
def fxErfOf (x : XR) : XR :=
  if (XR.int 9).le x.abs then (if x.isNeg then .int (-1) else .one)
  else
    let f := x.fix
    ((ofFix (erfSum (fxMul f f) 500 3 f)).mul (ofFix fxErf)).mul (fxExp (x.mul x).neg)

/-- ½x(1 + erf(x/√2)) of a finite x. -/
def fxGelu (x : XR) : XR := (x.mul (.dy 1 (-1))).mul (XR.one.add (fxErfOf (x.mul (ofFix fxRoot))))

/-! ### Results within a bound -/

/-- The functions of R116. -/
inductive Fn where
  | exp | exp2 | log | log2 | tanh | sigmoid | rcp | rsqrt | sin | cos | erf | gelu
deriving DecidableEq, Repr

/-- A special value that R116 gives, if the operand is special. -/
def Fn.special (g : Fn) (x : XR) : Option XR :=
  match x with
  | .nan => some .nan
  | .inf neg =>
    match g with
    | .exp => some (if neg then .zero else .inf false)
    | .exp2 => some (if neg then .zero else .inf false)
    | .log => some (if neg then .nan else .inf false)
    | .log2 => some (if neg then .nan else .inf false)
    | .tanh => some (.int (if neg then -1 else 1))
    | .sigmoid => some (if neg then .zero else .one)
    | .rcp => some .zero
    | .rsqrt => some (if neg then .nan else .zero)
    | .sin => some .nan
    | .cos => some .nan
    | .erf => some (.int (if neg then -1 else 1))
    | .gelu => some (if neg then .zero else .inf false)
  | .fin m _ _ =>
    match g with
    | .log => if m = 0 then some (.inf true) else if m < 0 then some .nan else none
    | .log2 => if m = 0 then some (.inf true) else if m < 0 then some .nan else none
    | .rcp => if m = 0 then some (.inf false) else none
    | .rsqrt => if m = 0 then some (.inf false) else if m < 0 then some .nan else none
    | _ => none

/-- The function's value at a finite operand that is not special. -/
def Fn.value (g : Fn) (x : XR) : XR :=
  match g with
  | .exp => fxExp x
  | .exp2 => fxExp2 x
  | .log => fxLn x
  | .log2 => fxLog2 x
  | .tanh => fxTanh x
  | .sigmoid => fxSigmoid x
  | .rcp => XR.one.div x
  | .rsqrt => (XR.one.div x).sqrt
  | .sin => fxSin 0 x
  | .cos => fxSin 1 x
  | .erf => fxErfOf x
  | .gelu => fxGelu x

/-- n units in the last place of a value in fp32 or fp64. -/
def ulps (wide : Bool) (n : Int) (f : XR) : XR := (ulp (if wide then f64 else f32) f).mul (.int n)

/-- The error e of R116 before the final rounding, at the value f of the operand x. -/
def Fn.err (g : Fn) (wide : Bool) (x f : XR) : XR :=
  match g with
  | .exp => ulps wide (if wide then 1 else 2) f
  | .exp2 => ulps wide (if wide then 1 else 2) f
  | .log => ulps wide (if wide then 1 else 2) f
  | .log2 => ulps wide (if wide then 1 else 2) f
  | .tanh => ulps false 4 f
  | .sigmoid => ulps false 4 f
  | .rcp => if wide then .zero else ulps false 1 f
  | .rsqrt => if wide then .zero else ulps false 2 f
  | .sin => .dy 1 (-21)
  | .cos => .dy 1 (-21)
  | .erf => .dy 1 (-22)
  | .gelu => (x.abs.mul (.dy 1 (-22))).add (ulps false 4 f)

/-- The final rounding term ρ of R47 at a value written in a format of R31; of an fp32 pair, at its h. -/
def roundTerm (c : Nat) (r : Round) (y : XR) : XR :=
  let half : Bool := match r with | .near => true | _ => false
  match floatFmt c with
  | some f => (ulp f y).mul (.dy 1 (if half then -1 else 0))
  | none => if c = 0x11 then (ulp f32 y).mul (.dy 1 (if half then -25 else -24)) else .dy 1 (if half then -1 else 0)

/-- The number that a candidate spells: the sum of the two fp64 values it holds. -/
def candReal (cand : BitVec 128) : XR := decodeElem 0x0F (cand.toNat % 2 ^ 64) |>.add (decodeElem 0x0F (cand.toNat / 2 ^ 64))

/-- A free value within an error of a value (R54, R95, R116): the candidate's where it lies inside, else the value itself. -/
def nearTo (cand : BitVec 128) (f err : XR) : XR :=
  match f, candReal cand with
  | .fin _ _ _, .fin m e d => if ((XR.fin m e d).sub f).abs.le err then .fin m e d else f
  | _, _ => f

/-- The value at which ρ is taken for element bits: h of an fp32 pair (R47). -/
def rhoAt (c bits : Nat) : XR := if c = 0x11 then decodeElem 0x0E (bits % 2 ^ 32) else decodeElem c bits

/-- A free value within an error of f, converted to a format (R49-R52). What is written lies within the error and ρ of f (R47). -/
def withinBound (c : Nat) (r : Round) (cand : BitVec 128) (f err : XR) : Nat × Bool :=
  let q := encodeElem c r (nearTo cand f err)
  let z := decodeElem c q.1
  if z.isNan || z.isInf || !(z.sub f).abs.le (err.add (roundTerm c r (rhoAt c q.1))) then encodeElem c r f else q

/-- The result of a function of R116 before its conversion, its evaluation being in fp64 where `wide`. Where R116 fixes only that the
value lies in [−1, 1], the candidate gives it. -/
def Fn.eval (g : Fn) (wide : Bool) (cand : BitVec 128) (x : XR) : XR :=
  match g.special x with
  | some y => y
  | none =>
    if (g = .sin ∨ g = .cos) ∧ (XR.dy 1 16).lt x.abs then nearTo cand .zero .one
    else nearTo cand (g.value x) (g.err wide x (g.value x))

/-- The result of a function of R116 in a format of R31. -/
def Fn.result (g : Fn) (wide : Bool) (c : Nat) (r : Round) (cand : BitVec 128) (x : XR) : Nat × Bool :=
  match g.special x with
  | some y => encodeElem c r y
  | none =>
    if (g = .sin ∨ g = .cos) ∧ (XR.dy 1 16).lt x.abs then encodeElem c r (nearTo cand .zero .one)
    else withinBound c r cand (g.value x) (g.err wide x (g.value x))

end Sys2Proof.Machine
end

