-- ==== Sys2Proof/Machine/Operands.lean ====
section
/-! DEFINITION. The instruction word (R151-R155): its fields, the checks made of the whole word at issue, and the registers that it
names. -/

namespace Sys2Proof.Machine

/-! ### Fields (R152, R153) -/

def wOpc (w : W64) : Nat := fld w 11 4
def wDst (w : W64) : Nat := fld w 17 12
def wDstP (w : W64) : Nat := fld w 14 12
def wSa (w : W64) : Nat := fld w 23 18
def wSb (w : W64) : Nat := fld w 29 24
def wSc (w : W64) : Nat := fld w 35 30
def wType (w : W64) : Nat := fld w 40 36
def wRnd (w : W64) : Nat := fld w 42 41
def wP (w : W64) : Nat := fld w 45 43
def wMod (w : W64) : Nat := fld w 63 48
def wImm (w : W64) : Nat := fld w 63 32
def wSpace (w : W64) : Nat := fld w 31 30
def wSize (w : W64) : Nat := fld w 34 32
def wSx (w : W64) : Bool := bit w 35
def wStrm (w : W64) : Bool := bit w 36
def wFs (w : W64) : Nat := fld w 39 37
/-- OFF24, signed (R153). -/
def wOff (w : W64) : Int := signed 24 (fld w 63 40)

/-- Whether an opcode has format I (R160). -/
def isImm (opc : Nat) : Bool := decide (0x20 ≤ opc) && decide (opc < 0x40)

/-- CMP, in MOD or MOD5 (R161). -/
def wCmp (w : W64) : Nat := if isImm (wOpc w) then fld w 26 24 else fld w 50 48
/-- U, in MOD or MOD5 (R161). -/
def wU (w : W64) : Bool := if isImm (wOpc w) then bit w 27 else bit w 51
/-- W64, in MOD or MOD5 (R161). -/
def wW64 (w : W64) : Bool := if isImm (wOpc w) then bit w 28 else bit w 54
/-- COMB (R161). -/
def wComb (w : W64) : Nat := fld w 53 52
/-- WIDE (R161). -/
def wWide (w : W64) : Bool := bit w 55
/-- SRC and U of CVT (R161). -/
def wSrc (w : W64) : Nat := fld w 52 48
def wCvtU (w : W64) : Bool := bit w 53

/-! ### The opcode map (R160) -/

/-- `n` bits from bit `i` on. -/
def mbits (i n : Nat) : Nat := (2 ^ n - 1) * 2 ^ i

def mD : Nat := mbits 12 6
def mDp : Nat := mbits 12 3
def mA : Nat := mbits 18 6
def mB : Nat := mbits 24 6
def mC : Nat := mbits 30 6
def mT : Nat := mbits 36 5
def mR : Nat := mbits 41 2
def mP : Nat := mbits 43 3
def mImm : Nat := mbits 32 32
def mModU : Nat := mbits 51 1
def mModW : Nat := mbits 54 1
def mModCmp : Nat := mbits 48 3
def mModComb : Nat := mbits 52 2
def m5U : Nat := mbits 27 1
def m5W : Nat := mbits 28 1
def m5Cmp : Nat := mbits 24 3
/-- SPACE, SIZE and OFF24. -/
def mMem : Nat := mbits 30 2 + mbits 32 3 + mbits 40 24

/-- The bits above GUARD and OPC that an instruction uses; none for a reserved opcode (R160). -/
def usedBits (w : W64) : Option Nat :=
  let combP := if wComb w = 0 then 0 else mP
  match wOpc w with
  | 0x00 => some 0
  | 0x01 | 0x02 | 0x08 | 0x09 | 0x0A | 0x0B => some (mD + mA + mB + mModW)
  | 0x03 => some (mD + mA + mB)
  | 0x04 | 0x10 | 0x11 => some (mD + mA + mB + mModU)
  | 0x05 => some (mD + mA + mB + mC + mModU + mbits 55 1)
  | 0x06 | 0x07 | 0x0C => some (mD + mA + mB + mModU + mModW)
  | 0x0D | 0x0E | 0x0F => some (mD + mA)
  | 0x12 => some (mD + mA + mB + mP + mModW)
  | 0x13 => some (mD + mA + mModW)
  | 0x14 => some (mDp + mA + mB + mModCmp + mModU + mModComb + mModW + combP)
  | 0x15 => some (mDp + mbits 18 3 + mbits 24 3 + mbits 30 3 + mbits 48 8)
  | 0x16 => some mD
  | 0x17 => some (mA + mbits 48 7)
  | 0x21 | 0x22 | 0x28 | 0x29 | 0x2A | 0x2B => some (mD + mA + mImm + m5W)
  | 0x23 => some (mD + mA + mImm)
  | 0x26 | 0x27 | 0x2C => some (mD + mA + mImm + m5U + m5W)
  | 0x33 => some (mD + mImm)
  | 0x34 => some (mDp + mA + mImm + m5Cmp + m5U + m5W)
  | 0x38 => some (mD + mImm + mbits 24 1)
  | 0x40 | 0x41 | 0x42 => some (mD + mA + mB + mT + mR)
  | 0x43 => some (mD + mA + mB + mC + mT + mR)
  | 0x44 | 0x45 => some (mD + mA + mB + mT)
  | 0x46 | 0x47 => some (mD + mA + mT)
  | 0x48 => some (mD + mA + mB + mT + mR)
  | 0x49 | 0x4A | 0x4B | 0x4C | 0x4D | 0x4E | 0x4F => some (mD + mA + mT + mR)
  | 0x50 => some (mDp + mA + mB + mT + mModCmp + mModComb + combP)
  | 0x51 => some (mD + mA + mT + mR + mbits 48 6)
  | 0x80 => some (mD + mA + mMem + mbits 35 1 + mbits 36 1)
  | 0x81 => some (mA + mB + mMem)
  | 0x82 | 0x83 | 0x84 => some (mD + mA + mB + mMem + mbits 37 3)
  | 0x85 | 0x86 => some (mD + mA + mB + mMem + mbits 37 3 + mbits 35 1)
  | 0xA0 | 0xA4 => some mImm
  | 0xA1 => some mB
  | 0xA2 => some (mD + mImm)
  | 0xA3 | 0xA5 => some 0
  | 0xA6 | 0xB3 => some (mbits 32 3)
  | 0xB0 => some (mA + mB)
  | 0xB1 => some (mA + mImm)
  | 0xB2 => some (mD + mA + mB + mP + mbits 48 16)
  | 0xC0 | 0xC1 | 0xC2 | 0xC3 | 0xC4 => some mA
  | _ => none

/-- Whether a TYPE is permitted (R165). -/
def typeOk (opc t : Nat) : Bool :=
  if opc = 0x48 ∨ opc = 0x49 then t == 0x0E || t == 0x0F
  else if 0x4A ≤ opc ∧ opc ≤ 0x4F then t == 0x0E
  else t == 0x00 || t == 0x01 || t == 0x0E || t == 0x0F

/-- Whether a format is permitted in CVT (R167). -/
def cvtFmtOk (c : Nat) : Bool := decide (c ≤ 0x06) || c == 0x0E || c == 0x0F || c == 0x10

/-- Whether a special register is listed (R157). -/
def sregOk (n : Nat) (wide : Bool) : Bool :=
  if wide then n == 0x10 || n == 0x12 else decide (n ≤ 9) || decide (0x10 ≤ n ∧ n ≤ 0x13)

/-- Whether every defined field holds a value that is not reserved (R154, R157, R161, R165, R167, R169, R172, R178). -/
def valuesOk (w : W64) : Bool :=
  let opc := wOpc w
  if opc = 0x14 ∨ opc = 0x34 then decide (wCmp w ≤ 5)
  else if opc = 0x38 then sregOk (wImm w) (bit w 24)
  else if opc = 0x44 ∨ opc = 0x45 ∨ opc = 0x46 ∨ opc = 0x47 then typeOk opc (wType w)
  else if 0x40 ≤ opc ∧ opc ≤ 0x4F then typeOk opc (wType w) && wRnd w != 2
  else if opc = 0x50 then typeOk opc (wType w) && decide (wCmp w ≤ 5)
  else if opc = 0x51 then cvtFmtOk (wSrc w) && cvtFmtOk (wType w) && wRnd w != 2
  else if opc = 0x80 then decide (wSpace w ≤ 2) && decide (wSize w ≤ 4) && (!wStrm w || wSpace w == 0)
  else if opc = 0x81 then decide (wSpace w ≤ 1) && decide (wSize w ≤ 4)
  else if 0x82 ≤ opc ∧ opc ≤ 0x86 then decide (wSpace w ≤ 1) && (wSize w == 2 || wSize w == 3) && decide (wFs w ≤ 5)
  else if opc = 0xB3 then decide (1 ≤ fld w 34 32) && decide (fld w 34 32 ≤ 5)
  else true

/-! ### Registers named -/

/-- Registers of an access of a SIZE (R169). -/
def sizeRegs (z : Nat) : Nat := if z = 3 then 2 else if z = 4 then 4 else 1

/-- Bytes of an access of a SIZE (R153). -/
def sizeBytes (z : Nat) : Nat := 2 ^ z

/-- Registers that hold a value of a format (R155, R165, R167). -/
def fmtRegs (c : Nat) : Nat := if c = 0x0F then 2 else 1

/-- Registers of an integer operand (R161). -/
def intRegs (w : W64) : Nat := if wW64 w then 2 else 1

/-- The source registers that an instruction names: first register and count (R155, R160). -/
def srcRegs (w : W64) : List (Nat × Nat) :=
  let opc := wOpc w
  let a := wSa w
  let b := wSb w
  let n := intRegs w
  let m := fmtRegs (wType w)
  match opc with
  | 0x01 | 0x02 | 0x06 | 0x07 | 0x08 | 0x09 | 0x0A | 0x0B | 0x0C | 0x12 | 0x14 => [(a, n), (b, n)]
  | 0x03 | 0x04 | 0x10 | 0x11 => [(a, 1), (b, 1)]
  | 0x05 => [(a, 1), (b, 1), (wSc w, if wWide w then 2 else 1)]
  | 0x0D | 0x0E | 0x0F | 0x17 => [(a, 1)]
  | 0x13 | 0x21 | 0x22 | 0x26 | 0x27 | 0x28 | 0x29 | 0x2A | 0x2B | 0x2C | 0x34 => [(a, n)]
  | 0x23 => [(a, 1)]
  | 0x40 | 0x41 | 0x42 | 0x44 | 0x45 | 0x48 | 0x50 => [(a, m), (b, m)]
  | 0x43 => [(a, m), (b, m), (wSc w, m)]
  | 0x46 | 0x47 | 0x49 | 0x4A | 0x4B | 0x4C | 0x4D | 0x4E | 0x4F => [(a, m)]
  | 0x51 => [(a, fmtRegs (wSrc w))]
  | 0x80 => [(a, if wSpace w = 0 then 2 else 1)]
  | 0x81 => [(a, if wSpace w = 0 then 2 else 1), (b, sizeRegs (wSize w))]
  | 0x82 | 0x83 | 0x85 | 0x86 => [(a, if wSpace w = 0 then 2 else 1), (b, sizeRegs (wSize w))]
  | 0x84 => [(a, if wSpace w = 0 then 2 else 1), (b, 2 * sizeRegs (wSize w))]
  | 0xA1 => [(b, 1)]
  | 0xB0 | 0xB2 => [(a, 2), (b, 1)]
  | 0xB1 => [(a, 2)]
  | 0xC0 | 0xC1 | 0xC2 | 0xC3 | 0xC4 => [(a, 1)]
  | _ => []

/-- The destination registers that an instruction names, with their count (R155, R160). -/
def dstRegs (w : W64) : List (Nat × Nat) :=
  let opc := wOpc w
  let d := wDst w
  let n := intRegs w
  let m := fmtRegs (wType w)
  match opc with
  | 0x01 | 0x02 | 0x06 | 0x07 | 0x08 | 0x09 | 0x0A | 0x0B | 0x0C | 0x12 | 0x13 => [(d, n)]
  | 0x21 | 0x22 | 0x26 | 0x27 | 0x28 | 0x29 | 0x2A | 0x2B | 0x2C => [(d, n)]
  | 0x03 | 0x04 | 0x10 | 0x11 | 0x0D | 0x0E | 0x0F | 0x16 | 0x23 | 0x33 | 0xA2 | 0xB2 => [(d, 1)]
  | 0x05 => [(d, if wWide w then 2 else 1)]
  | 0x38 => [(d, if bit w 24 then 2 else 1)]
  | 0x40 | 0x41 | 0x42 | 0x43 | 0x44 | 0x45 | 0x46 | 0x47 | 0x48 | 0x49 | 0x51 => [(d, m)]
  | 0x4A | 0x4B | 0x4C | 0x4D | 0x4E | 0x4F => [(d, 1)]
  | 0x80 | 0x82 | 0x83 | 0x84 | 0x85 | 0x86 => [(d, sizeRegs (wSize w))]
  | _ => []

/-- How many registers an instruction writes at DST. -/
def dstCount (w : W64) : Nat := match dstRegs w with | (_, n) :: _ => n | [] => 0

/-- Whether an operand names a register, pair or quad that exists (R128, R155). -/
def regOk (nregs : Nat) (x : Nat × Nat) : Bool := x.1 % x.2 == 0 && decide (x.1 + x.2 ≤ nregs)

/-- The whole word at issue (R154): reserved opcode, reserved or unused bits, reserved values, registers. -/
def wordOk (nregs : Nat) (w : W64) : Bool :=
  match usedBits w with
  | none => false
  | some m =>
    (w &&& ~~~(BitVec.ofNat 64 (m + 0xFFF))) == 0 && valuesOk w && (srcRegs w).all (regOk nregs) && (dstRegs w).all (regOk nregs)

/-! ### Values of operands -/

/-- Whether any source register is marked poisoned (R141). -/
def srcMarked (w : W64) (t : Thread) : Bool := (srcRegs w).any (fun e => t.markedIn e.1 e.2)

/-- Whether a register named by the instruction waits for a load (R159). -/
def regsBusy (w : W64) (t : Thread) : Bool :=
  (srcRegs w).any (fun e => t.busyIn e.1 e.2) || (dstRegs w).any (fun e => t.busyIn e.1 e.2)

/-- Operand width of an integer instruction (R162). -/
def intBits (w : W64) : Nat := if wW64 w then 64 else 32

/-- Operand a (R162). -/
def opA (w : W64) (t : Thread) : Nat := t.regsAt (wSa w) (intRegs w)

/-- IMM32 extended to the operand width (R162): by sign, or with zeros when U = 1. -/
def immB (w : W64) : Nat := if wU w then wImm w else unsign (intBits w) (signed 32 (wImm w))

/-- Operand b: a register, or the immediate (R160, R162). -/
def opB (w : W64) (t : Thread) : Nat := if isImm (wOpc w) then immB w else t.regsAt (wSb w) (intRegs w)

/-- The guard of an instruction in a thread (R158). -/
def guardOf (w : W64) (t : Thread) : Bool := t.pred (fld w 2 0) != bit w 3

/-- The destination registers of an instruction written. -/
def Thread.putDst (t : Thread) (w : W64) (v : Nat) (bad : Bool) : Thread := t.setRegs (wDst w) v bad (dstCount w)

/-- The address of a memory instruction in its space, as a number (R168). -/
def memAddr (w : W64) (t : Thread) : Nat :=
  if wSpace w = 0 then unsign 64 ((t.pair (wSa w) : Int) + wOff w) else unsign 32 (((t.reg (wSa w)).toNat : Int) + wOff w)

end Sys2Proof.Machine
end

