-- ==== Sys2Proof/Machine/Flags.lean ====
section
/-! DEFINITION. Predicates (R164, R166): comparisons of integers and floats, their combining, and PLOG. -/

namespace Sys2Proof.Machine

/-- The relation CMP of two ordered values (R161). -/
def cmpHolds (c : Nat) (lt eq : Bool) : Bool :=
  match c with
  | 0 => eq
  | 1 => !eq
  | 2 => lt
  | 3 => lt || eq
  | 4 => !(lt || eq)
  | _ => !lt

/-- a CMP b over integers of `w` bits (R164). -/
def cmpInt (c w : Nat) (u : Bool) (a b : Nat) : Bool :=
  let a' : Int := if u then (a % 2 ^ w : Nat) else signed w a
  let b' : Int := if u then (b % 2 ^ w : Nat) else signed w b
  cmpHolds c (decide (a' < b')) (decide (a' = b'))

/-- a CMP b over floats (R166): with a NaN every relation is false except NE. -/
def cmpFloat (c : Nat) (a b : XR) : Bool :=
  match a.cmp b with
  | none => c == 1
  | some o => cmpHolds c (o == -1) (o == 0)

/-- COMB (R161, R164). -/
def combine (comb : Nat) (c p : Bool) : Bool :=
  match comb with
  | 0 => c
  | 1 => c && p
  | 2 => c || p
  | _ => c != p

/-- The predicate that a comparison writes, combined as COMB says; its mark is that of what it came from (R141, R164). -/
def Thread.putCompare (t : Thread) (w : W64) (c : Bool) : Thread :=
  let comb := if isImm (wOpc w) then 0 else wComb w
  t.putPred (wDstP w) (combine comb c (t.pred (wP w))) (srcMarked w t || (comb != 0 && t.pmarked (wP w)))

/-- Bit (4 pa + 2 pb + pc) of LUT (R164). -/
def plogBit (w : W64) (t : Thread) : Bool :=
  let p (i : Nat) : Nat := b2n (t.pred i)
  nbit (wMod w) (4 * p (fld w 20 18) + 2 * p (fld w 26 24) + p (fld w 32 30))

/-- Σ pᵢ × 2ⁱ (R164). -/
def predBits (t : Thread) : Nat := ((List.range 8).map (fun i => b2n (t.pred i) * 2 ^ i)).sum

end Sys2Proof.Machine
end

