-- ==== Sys2Proof/Machine/Threads.lean ====
section
/-! DEFINITION. The issue of a kernel instruction (R131, R132, R151-R159): its issue set, the fetch of its word, the checks, the guard;
and the integer, predicate, float and conversion instructions (R162-R167), which only write registers. -/

namespace Sys2Proof.Machine

/-! ### Issue -/

/-- An issue under way: tile, group, kernel, the threads whose guard holds and the others, PC, word. -/
structure IssueAt where
  t    : Nat
  g    : Nat
  k    : Kernel
  all  : List Nat
  on   : List Nat
  off  : List Nat
  pc   : Nat
  word : W64

/-- Kernel encoding and out of range, as DETAIL of ST_ILLEGAL (R295). -/
def badEncoding : Nat := 0x06
def outOfRange : Nat := 0x02

/-- The threads of an issue set, all runnable at one PC (R131); none where the set is not one. -/
def issueThreads (g : Group) (lanes : W64) : Option (List (Nat × Thread)) :=
  let l := bitsSet lanes
  match l.mapM (fun i => (g.threads[i]?).map (fun t => (i, t))) with
  | none => none
  | some [] => none
  | some (x :: xs) =>
    if (x :: xs).all (fun e => e.2.st == .runnable && e.2.pc == x.2.pc) then some (x :: xs) else none

/-- What a fetch answers (R151). -/
inductive Fetched where
  | word (w : W64)
  | failed (st : Status × Nat)
  | waits                         -- the read must wait at its home (R216)

/-- The status of a read that did not return its data (R151, R288). -/
def readFailure (m : Met) : Option (Status × Nat) :=
  if m.dies ≠ 0 then some (.dieLost, m.dies.toNat)
  else if m.unreach then some (.hostUnreachable, m.drops)
  else if m.poison then some (.poison, 0)
  else none

/-- The run of a tile with a word in its instruction cache. -/
def Run.cache (r : Run) (i : Nat) (w : W64) : Run := { r with icache := Sparse.insert r.icache i w }

/-- The word at a PC from memory (R151, R145). -/
def fetchMem (t : Nat) (k : Kernel) (pc : Nat) (s : State) : Fetched × State :=
  let x := translate (.tile (Fin.ofNat 96 t)) k.ctx.val (k.entry.toNat + pc) .fetch false s
  match x.1 with
  | .ok pa coh =>
    let r := memRead (threadPort x.2 t coh) pa 8 x.2
    if r.2.eng.stalled then (.waits, s)
    else match readFailure r.1.met with
    | some st => (.failed st, r.2)
    | none =>
      let w : W64 := BitVec.ofNat 64 (ofBytes (plain r.1.data))
      (.word w, r.2.modRun t (fun r => r.cache (pc / 8) w))
  | f => if x.2.eng.stalled then (.waits, s) else (.failed (xresStatus f), x.2)

/-- The fetch of the word at a PC (R151): from the instruction cache where that still holds it, else from memory. -/
def fetchWord (t : Nat) (k : Kernel) (pc : Nat) (hit : Bool) (s : State) : Fetched × State :=
  match (s.tile t).run with
  | none => fetchMem t k pc s
  | some r =>
    match (if hit then Sparse.find? r.icache (pc / 8) else none) with
    | some w => (.word w, s)
    | none => fetchMem t k pc s

/-- The kernel of a tile aborts for an encoding or an operand (R128, R154). -/
def illegal (t pc detail : Nat) (s : State) : State := abortOnTile t .illegal detail pc 0 s

/-- Threads of a group changed, each with its index. -/
def mapLanes (t g : Nat) (l : List Nat) (f : Nat → Thread → Thread) (s : State) : State :=
  l.foldl (fun s i => s.modThread t g i (f i)) s

/-- The PC beyond which no instruction lies (R151). -/
def pcEnd : Nat := 2 ^ 25

/-- Threads go on to the next instruction; one that would pass the last PC aborts the kernel (R151, R158). -/
def advanceLanes (t g pc : Nat) (l : List Nat) (s : State) : State :=
  let s := mapLanes t g l (fun _ th => { th with pc := pc + 8 }) s
  if pcEnd ≤ pc + 8 ∧ !l.isEmpty ∧ s.issues t then illegal t pc outOfRange s else s

/-- The checks of an issued word: encoding, then poison in a guard (R141, R154); then the instruction runs in the threads whose
guard holds, and the others go on (R158). -/
def runIssued (body : IssueAt → State → State) (t g : Nat) (k : Kernel) (ths : List (Nat × Thread)) (pc : Nat) (w : W64)
    (s : State) : State :=
  let s := pmcAdd (1 + dieOfTile t) 3 1 s
  if !wordOk k.nregs w then illegal t pc badEncoding s
  else if ths.any (fun e => e.2.pmarked (fld w 2 0)) then abortOnTile t .poison 0 pc 0 s
  else
    let on := (ths.filter (fun e => guardOf w e.2)).map (·.1)
    let off := (ths.filter (fun e => !guardOf w e.2)).map (·.1)
    let s := if on.isEmpty then s else body ⟨t, g, k, ths.map (·.1), on, off, pc, w⟩ s
    advanceLanes t g pc off s

/-- An issue set whose word is fetched and is this instruction's (R131, R151): what the instruction then does with it. A PC beyond the
last, and a reserved opcode, abort (R151, R154). -/
def onFetch (i : Issue) (opc : Nat) (act : IssueAt → List (Nat × Thread) → State → State) (s : State) : State :=
  let t := i.tile.val
  match (s.tile t).run, s.runKernel t, s.group? t i.group with
  | some r, some k, some g =>
    match issueThreads g i.lanes with
    | some (x :: xs) =>
      if r.stopped then s
      else if pcEnd ≤ x.2.pc then illegal t x.2.pc outOfRange s
      else
        let pc := x.2.pc
        let f := fetchWord t k pc i.hit s
        match f.1 with
        | .waits => s
        | .failed st => abortOnTile t st.1 st.2 pc 0 f.2
        | .word w =>
          if wOpc w ≠ opc then (if (usedBits w).isNone then illegal t pc badEncoding f.2 else s)
          else act ⟨t, i.group, k, (x :: xs).map (·.1), [], [], pc, w⟩ (x :: xs) f.2
    | _ => s
  | _, _, _ => s

/-! ### The choice of an issue set (R131-R133) -/

/-- Whether an opcode is of a group-wide instruction: a thread that reaches one is blocked there (R131, R135). -/
def isWide (opc : Nat) : Bool := decide (0xC0 ≤ opc ∧ opc ≤ 0xC4)

/-- Whether the next instruction of a thread is group-wide (R131). -/
def Run.atWide (r : Run) (th : Thread) : Bool :=
  match Sparse.find? r.icache (th.pc / 8) with
  | some w => isWide (wOpc w)
  | none => false

/-- Whether a thread of a group is ready for an instruction of its own (R131): runnable, its word in the instruction cache and its registers
there, the unit of its instruction free. -/
def isReady (r : Run) (stalled : List (Nat × Nat)) (g : Nat) (th : Thread) : Bool :=
  th.st == .runnable && !stalled.contains (g, th.pc) &&
    (match Sparse.find? r.icache (th.pc / 8) with
     | some w => !isWide (wOpc w) && !regsBusy w th
     | none => false)

/-- The threads of a group, each with its lane. -/
def Group.lanes (g : Group) : List (Nat × Thread) := g.threads.mapIdx (fun l th => (l, th))

/-- Whether a thread has exited (R131). -/
def Thread.isExited (th : Thread) : Bool := th.st == .exited

/-- The live threads of a group with their lanes (R131). -/
def Group.live (g : Group) : List (Nat × Thread) :=
  ((List.range g.threads.length).zip g.threads).filter (fun e => !e.2.isExited)

/-- The PC of the group-wide instruction that every live thread of a group has reached (R131, R135). -/
def Group.converged (r : Run) (g : Group) : Option Nat :=
  match g.live with
  | [] => none
  | first :: rest =>
    match Sparse.find? r.icache (first.2.pc / 8) with
    | some w =>
      if isWide (wOpc w) && (first :: rest).all (fun e => e.2.pc == first.2.pc &&
          (e.2.st == .atGroupWide || e.2.st == .runnable && !regsBusy w e.2)) then some first.2.pc
      else none
    | none => none

/-- The ready threads of a group, by lane (R131): all its live ones, where they have converged on a group-wide instruction. -/
def readyLanes (r : Run) (stalled : List (Nat × Nat)) (g : Group) : List (Nat × Thread) :=
  match g.converged r with
  | some pc => if stalled.contains (g.num, pc) then [] else g.live
  | none => g.lanes.filter (fun e => isReady r stalled g.num e.2)

/-- The count at which a guard of R132 acts. -/
def guardCount : Nat := 4096

/-- The PC that a group issues at (R132): the lowest of its ready threads, or that of the thread left out most often, once the guard acts. -/
def choosePc (r : Run) (stalled : List (Nat × Nat)) (g : Group) : Nat :=
  let l := readyLanes r stalled g
  let skips (e : Nat × Thread) : Nat := Sparse.read 0 r.sched.skip (64 * g.num + e.1)
  let top := l.foldl (fun m e => max m (skips e)) 0
  let from_ := if guardCount ≤ top then l.filter (fun e => skips e == top) else l
  from_.foldl (fun m e => min m e.2.pc) pcEnd

/-- The oldest group that starves past the guard, else the oldest (R132); groups are in the order of their age. -/
def oldestOf (r : Run) (l : List Group) : Option Group :=
  match l.find? (fun g => decide (guardCount ≤ Sparse.read 0 r.sched.starve g.num)) with
  | some g => some g
  | none => l.head?

/-- Loads, stores and atomics; and branches, EXIT, barriers, SIG and WAITS (R133). -/
def isMemOp (opc : Nat) : Bool := decide (0x80 ≤ opc ∧ opc ≤ 0x86)
def isCtlOp (opc : Nat) : Bool := decide (0xA0 ≤ opc ∧ opc ≤ 0xA6 ∧ opc ≠ 0xA4) || decide (0xB0 ≤ opc ∧ opc ≤ 0xB2)

/-- Whether the set of a group may co-issue with an instruction (R133). -/
def mayCoIssue (r : Run) (stalled : List (Nat × Nat)) (width opc : Nat) (g : Group) : Bool :=
  match Sparse.find? r.icache (choosePc r stalled g / 8) with
  | some w => decide (width ≤ 16) && !isWide opc && !isWide (wOpc w) && !(isMemOp opc && isMemOp (wOpc w)) && !(isCtlOp opc && isCtlOp (wOpc w))
  | none => false

/-- The groups with a ready thread (R132). -/
def readyGroups (r : Run) (stalled : List (Nat × Nat)) : List Group := r.groups.filter (fun g => !(readyLanes r stalled g).isEmpty)

/-- The set H that co-issues with the instruction of group `n` (R132, R133), by its group and PC. -/
def coChoice (r : Run) (stalled : List (Nat × Nat)) (width opc n : Nat) : Option (Nat × Nat) :=
  (oldestOf r ((readyGroups r stalled).filter (fun g => g.num != n && mayCoIssue r stalled width opc g))).map
    (fun g => (g.num, choosePc r stalled g))

/-- Whether the set that is to issue in the same tile cycle as the one before it still stands. -/
def coWaits (r : Run) : Bool :=
  match r.sched.next with
  | some (n, pc) => r.groups.any (fun g => g.num == n && g.threads.any (fun th => th.pc == pc && isReady r [] n th))
  | none => false

/-- Whether R132 chooses a group at a PC for this issue: as the H of the set before it, or, once that has issued, as G. -/
def issueChosen (r : Run) (i : Issue) (pc : Nat) : Bool :=
  if i.co then r.sched.next == some (i.group, pc)
  else !coWaits r &&
    (match oldestOf r (readyGroups r i.stalled) with
     | some g => g.num == i.group && choosePc r i.stalled g == pc
     | none => false)

/-- The counts of R132 after a set of a group has issued, the instructions of `stalled` not being ready. A set of width 64 takes two tile
cycles; one that co-issues takes none more. -/
def Sched.issued (c : Sched) (r : Run) (width g : Nat) (lanes : List Nat) (opc : Nat) (stalled : List (Nat × Nat)) (co : Bool) : Sched :=
  let n := if co then 0 else if width = 64 then 2 else 1
  let left : List Nat := match r.groups.find? (fun x => x.num == g) with
    | some x => x.lanes.filterMap (fun e =>
        if e.2.st == .runnable && !r.atWide e.2 && !lanes.contains e.1 then some e.1 else none)
    | none => []
  let more (m : Sparse Nat) (k n : Nat) : Sparse Nat := Sparse.write 0 m k (Sparse.read 0 m k + n)
  { starve := Sparse.drop ((readyGroups r stalled).foldl (fun m x => more m x.num n) c.starve) g
    skip := left.foldl (fun m l => more m (64 * g + l) 1) (lanes.foldl (fun m l => Sparse.drop m (64 * g + l)) c.skip)
    next := if co then none else coChoice r stalled width opc g }

/-- The issue of a set of a group counted by its tile's scheduler (R132). -/
def noteIssue (t width g : Nat) (lanes : List Nat) (opc : Nat) (stalled : List (Nat × Nat)) (co : Bool) (s : State) : State :=
  s.modRun t (fun r => { r with sched := r.sched.issued r width g lanes opc stalled co })

/-- Whether a set holds every thread of its group that is ready at its PC (R131). -/
def setWhole (a : IssueAt) (ready : Nat → Thread → Bool) (s : State) : Bool :=
  match s.group? a.t a.g with
  | some g => g.lanes.all (fun e =>
      !(e.2.st == .runnable && e.2.pc == a.pc && !regsBusy a.word e.2 && ready e.1 e.2) || a.all.contains e.1)
  | none => false

/-- Whether R132 chooses the group and PC of an issue. -/
def State.chooses (s : State) (i : Issue) (pc : Nat) : Bool :=
  match (s.tile i.tile.val).run with
  | some r => issueChosen r i pc
  | none => false

/-- One issue (R131, R132): the set is issued where it is the whole set of ready threads that the tile selects. -/
def onIssue (i : Issue) (opc : Nat) (ready : State → IssueAt → Nat → Thread → Bool) (body : IssueAt → State → State) (s : State) : State :=
  onFetch i opc (fun a ths s' =>
    if ths.any (fun e => regsBusy a.word e.2 || !ready s' a e.1 e.2) || !setWhole a (ready s' a) s' || !s'.chooses i a.pc then s
    else runIssued body a.t a.g a.k ths a.pc a.word
      (noteIssue a.t a.k.width a.g a.all (wOpc a.word) i.stalled i.co s')) s

/-- No readiness beyond the registers'. -/
def anyTime (_ : State) (_ : IssueAt) (_ : Nat) (_ : Thread) : Bool := true

/-- An instruction of a running module; the errors that it meets in its tile's memories come first (R388). -/
def issueLive (i : Issue) (f : State → State) (s : State) : Host.Outcome State Fault Refusal :=
  .next (whenLive (fun s => f (meetFlaws i.tile.val i.flaws s)) s)

/-- An instruction that accesses memory, which may have to wait (LOG 144). -/
def issueServed (i : Issue) (f : State → State) (s : State) : Host.Outcome State Fault Refusal := issueLive i (orWait f) s

/-- An instruction that only changes the registers and predicates of its threads. -/
def issueReg (i : Issue) (opc : Nat) (f : State → IssueAt → Nat → Thread → Thread) (s : State) :
    Host.Outcome State Fault Refusal :=
  issueLive i (onIssue i opc anyTime (fun a s => advanceLanes a.t a.g a.pc a.on (mapLanes a.t a.g a.on (f s a) s))) s

/-- An instruction whose result depends only on its word and its thread. -/
def issueVal (i : Issue) (opc : Nat) (f : W64 → Thread → Nat) (s : State) : Host.Outcome State Fault Refusal :=
  issueReg i opc (fun _ a _ th => th.putDst a.word (f a.word th) (srcMarked a.word th)) s

/-- NOP (R160). -/
def execNop (i : Issue) (s : State) : Host.Outcome State Fault Refusal := issueReg i 0x00 (fun _ _ _ th => th) s

/-! ### Integers (R162, R163) -/

def vAdd (w : W64) (t : Thread) : Nat := (opA w t + opB w t) % 2 ^ intBits w
def vSub (w : W64) (t : Thread) : Nat := (opA w t + 2 ^ intBits w - opB w t) % 2 ^ intBits w
def vMul (w : W64) (t : Thread) : Nat := opA w t * opB w t % 2 ^ 32
def vAnd (w : W64) (t : Thread) : Nat := opA w t &&& opB w t
def vOr (w : W64) (t : Thread) : Nat := opA w t ||| opB w t
def vXor (w : W64) (t : Thread) : Nat := opA w t ^^^ opB w t
def vShl (w : W64) (t : Thread) : Nat := opA w t * 2 ^ (opB w t % intBits w) % 2 ^ intBits w

/-- SHR (R162): arithmetic, or logical with U. -/
def vShr (w : W64) (t : Thread) : Nat :=
  let n := opB w t % intBits w
  if wU w then opA w t / 2 ^ n else unsign (intBits w) (signed (intBits w) (opA w t) / ((2 ^ n : Nat) : Int))

/-- An operand as the number that U and the width make of it. -/
def asInt (w : W64) (v : Nat) : Int := if wU w then (v : Int) else signed (intBits w) v

def vMin (w : W64) (t : Thread) : Nat := if asInt w (opB w t) < asInt w (opA w t) then opB w t else opA w t
def vMax (w : W64) (t : Thread) : Nat := if asInt w (opA w t) < asInt w (opB w t) then opB w t else opA w t

/-- The 64-bit product of a and b (R162). -/
def product (w : W64) (t : Thread) : Int :=
  let a := (t.reg (wSa w)).toNat
  let b := (t.reg (wSb w)).toNat
  if wU w then ((a * b : Nat) : Int) else signed 32 a * signed 32 b

def vMulh (w : W64) (t : Thread) : Nat := unsign 64 (product w t) / 2 ^ 32

/-- IMAD (R162). -/
def vMad (w : W64) (t : Thread) : Nat :=
  if wWide w then (unsign 64 (product w t) + t.pair (wSc w)) % 2 ^ 64
  else ((t.reg (wSa w)).toNat * (t.reg (wSb w)).toNat + (t.reg (wSc w)).toNat) % 2 ^ 32

def vPopc (w : W64) (t : Thread) : Nat := popCount (t.reg (wSa w))

/-- CLZ (R162): 32 for 0. -/
def vClz (w : W64) (t : Thread) : Nat :=
  let a := (t.reg (wSa w)).toNat
  if a = 0 then 32 else 31 - Nat.log2 a

/-- BREV (R162). -/
def vBrev (w : W64) (t : Thread) : Nat :=
  ((bitsSet (t.reg (wSa w))).map (fun i => 2 ^ (31 - i))).sum

/-- IDIV (R163). -/
def vDiv (w : W64) (t : Thread) : Nat :=
  let a := (t.reg (wSa w)).toNat
  let b := (t.reg (wSb w)).toNat
  if b = 0 then 0xFFFFFFFF
  else if wU w then a / b
  else unsign 32 (Int.tdiv (signed 32 a) (signed 32 b))

/-- IREM (R163). -/
def vRem (w : W64) (t : Thread) : Nat :=
  let a := (t.reg (wSa w)).toNat
  let b := (t.reg (wSb w)).toNat
  if b = 0 then a
  else if wU w then a % b
  else unsign 32 (Int.tmod (signed 32 a) (signed 32 b))

/-- IADD (R162). -/
def execIadd (i : Issue) (s : State) : Host.Outcome State Fault Refusal := issueVal i 0x01 vAdd s
/-- ISUB (R162). -/
def execIsub (i : Issue) (s : State) : Host.Outcome State Fault Refusal := issueVal i 0x02 vSub s
/-- IMUL (R162). -/
def execImul (i : Issue) (s : State) : Host.Outcome State Fault Refusal := issueVal i 0x03 vMul s
/-- IMULH (R162). -/
def execImulh (i : Issue) (s : State) : Host.Outcome State Fault Refusal := issueVal i 0x04 vMulh s
/-- IMAD (R162). -/
def execImad (i : Issue) (s : State) : Host.Outcome State Fault Refusal := issueVal i 0x05 vMad s
/-- IMIN (R162). -/
def execImin (i : Issue) (s : State) : Host.Outcome State Fault Refusal := issueVal i 0x06 vMin s
/-- IMAX (R162). -/
def execImax (i : Issue) (s : State) : Host.Outcome State Fault Refusal := issueVal i 0x07 vMax s
/-- AND (R162). -/
def execAndR (i : Issue) (s : State) : Host.Outcome State Fault Refusal := issueVal i 0x08 vAnd s
/-- OR (R162). -/
def execOrR (i : Issue) (s : State) : Host.Outcome State Fault Refusal := issueVal i 0x09 vOr s
/-- XOR (R162). -/
def execXorR (i : Issue) (s : State) : Host.Outcome State Fault Refusal := issueVal i 0x0A vXor s
/-- SHL (R162). -/
def execShl (i : Issue) (s : State) : Host.Outcome State Fault Refusal := issueVal i 0x0B vShl s
/-- SHR (R162). -/
def execShr (i : Issue) (s : State) : Host.Outcome State Fault Refusal := issueVal i 0x0C vShr s
/-- POPC (R162). -/
def execPopc (i : Issue) (s : State) : Host.Outcome State Fault Refusal := issueVal i 0x0D vPopc s
/-- CLZ (R162). -/
def execClz (i : Issue) (s : State) : Host.Outcome State Fault Refusal := issueVal i 0x0E vClz s
/-- BREV (R162). -/
def execBrev (i : Issue) (s : State) : Host.Outcome State Fault Refusal := issueVal i 0x0F vBrev s
/-- IDIV (R163). -/
def execIdiv (i : Issue) (s : State) : Host.Outcome State Fault Refusal := issueVal i 0x10 vDiv s
/-- IREM (R163). -/
def execIrem (i : Issue) (s : State) : Host.Outcome State Fault Refusal := issueVal i 0x11 vRem s

/-- SEL (R162): the predicate's mark joins the operands' (R141). -/
def execSel (i : Issue) (s : State) : Host.Outcome State Fault Refusal :=
  issueReg i 0x12 (fun _ a _ th =>
    th.putDst a.word (if th.pred (wP a.word) then opA a.word th else opB a.word th)
      (srcMarked a.word th || th.pmarked (wP a.word))) s

/-- MOV (R162). -/
def execMov (i : Issue) (s : State) : Host.Outcome State Fault Refusal := issueVal i 0x13 opA s

/-- IADD.I (R162). -/
def execIaddI (i : Issue) (s : State) : Host.Outcome State Fault Refusal := issueVal i 0x21 vAdd s
/-- ISUB.I (R162). -/
def execIsubI (i : Issue) (s : State) : Host.Outcome State Fault Refusal := issueVal i 0x22 vSub s
/-- IMUL.I (R162). -/
def execImulI (i : Issue) (s : State) : Host.Outcome State Fault Refusal := issueVal i 0x23 vMul s
/-- IMIN.I (R162). -/
def execIminI (i : Issue) (s : State) : Host.Outcome State Fault Refusal := issueVal i 0x26 vMin s
/-- IMAX.I (R162). -/
def execImaxI (i : Issue) (s : State) : Host.Outcome State Fault Refusal := issueVal i 0x27 vMax s
/-- AND.I (R162). -/
def execAndI (i : Issue) (s : State) : Host.Outcome State Fault Refusal := issueVal i 0x28 vAnd s
/-- OR.I (R162). -/
def execOrI (i : Issue) (s : State) : Host.Outcome State Fault Refusal := issueVal i 0x29 vOr s
/-- XOR.I (R162). -/
def execXorI (i : Issue) (s : State) : Host.Outcome State Fault Refusal := issueVal i 0x2A vXor s
/-- SHL.I (R162). -/
def execShlI (i : Issue) (s : State) : Host.Outcome State Fault Refusal := issueVal i 0x2B vShl s
/-- SHR.I (R162). -/
def execShrI (i : Issue) (s : State) : Host.Outcome State Fault Refusal := issueVal i 0x2C vShr s
/-- MOV.I (R162). -/
def execMovI (i : Issue) (s : State) : Host.Outcome State Fault Refusal := issueVal i 0x33 (fun w _ => wImm w) s

/-! ### Predicates (R164) -/

/-- The comparison of ISETP and ISETP.I (R164). -/
def intCompare (w : W64) (t : Thread) : Thread :=
  t.putCompare w (cmpInt (wCmp w) (intBits w) (wU w) (opA w t) (opB w t))

/-- ISETP (R164). -/
def execIsetp (i : Issue) (s : State) : Host.Outcome State Fault Refusal :=
  issueReg i 0x14 (fun _ a _ th => intCompare a.word th) s

/-- ISETP.I (R164). -/
def execIsetpI (i : Issue) (s : State) : Host.Outcome State Fault Refusal :=
  issueReg i 0x34 (fun _ a _ th => intCompare a.word th) s

/-- PLOG (R164). -/
def execPlog (i : Issue) (s : State) : Host.Outcome State Fault Refusal :=
  issueReg i 0x15 (fun _ a _ th =>
    th.putPred (wDstP a.word) (plogBit a.word th)
      (th.pmarked (fld a.word 20 18) || th.pmarked (fld a.word 26 24) || th.pmarked (fld a.word 32 30))) s

/-- P2G (R164). -/
def execP2g (i : Issue) (s : State) : Host.Outcome State Fault Refusal :=
  issueReg i 0x16 (fun _ a _ th => th.putDst a.word (predBits th) ((List.range 7).any (fun p => th.pmarked p))) s

/-- G2P (R164). -/
def execG2p (i : Issue) (s : State) : Host.Outcome State Fault Refusal :=
  issueReg i 0x17 (fun _ a _ th =>
    let v := th.reg (wSa a.word)
    (List.range 7).foldl (fun t p =>
      if nbit (wMod a.word) p then t.putPred p (v.getLsbD p) (th.marked (wSa a.word)) else t) th) s

/-! ### Special registers (R157) -/

/-- Tile cycles since the kernel started: 21 per TEL count, with the part of a count free (LOG 31). -/
def cycles (s : State) (t : Nat) : Nat :=
  match (s.tile t).run with
  | some r => ((s.die (dieOfTile t)).tel - r.startTel).toNat * 21 + (Config.freeBits s.free 0).toNat % 21
  | none => 0

/-- A special register (R157). -/
def sregValue (s : State) (a : IssueAt) (lane n : Nat) : Nat :=
  match n with
  | 0x00 => lane
  | 0x01 => a.k.width
  | 0x02 => a.g
  | 0x03 => a.k.ngroup
  | 0x04 => ((bitsSet a.k.tiles).filter (fun u => decide (u < a.t))).length
  | 0x05 => popCount a.k.tiles
  | 0x06 => a.t
  | 0x07 => a.k.ctx.val
  | 0x08 => a.k.nregs
  | 0x09 => a.k.args.length
  | 0x10 => cycles s a.t
  | 0x11 => cycles s a.t / 2 ^ 32
  | 0x12 => (s.die (dieOfTile a.t)).tel.toNat
  | _ => (s.die (dieOfTile a.t)).tel.toNat / 2 ^ 32

/-- SREG (R157). -/
def execSreg (i : Issue) (s : State) : Host.Outcome State Fault Refusal :=
  issueLive i (onIssue i 0x38 anyTime (fun a s =>
    (advanceLanes a.t a.g a.pc a.on (mapLanes a.t a.g a.on (fun l th =>
      th.putDst a.word (sregValue s a l (wImm a.word)) false) s)).took)) s

/-! ### Floats (R165, R166) -/

/-- The rounding of a thread instruction (R165): a stochastic context default rounds to nearest. -/
def threadRound (k : Kernel) (w : W64) : Round :=
  let r := if wRnd w = 3 then k.rnd else wRnd w
  if r = 1 then .zero else .near

/-- An operand's register bits in the TYPE of the instruction (R165). -/
def fBits (w : W64) (t : Thread) (r : Nat) : Nat := t.regsAt r (fmtRegs (wType w)) % 2 ^ fmtBits (wType w)

/-- An operand's value (R165). -/
def fVal (w : W64) (t : Thread) (r : Nat) : XR := decodeElem (wType w) (fBits w t r)

def fA (w : W64) (t : Thread) : XR := fVal w t (wSa w)
def fB (w : W64) (t : Thread) : XR := fVal w t (wSb w)
def fC (w : W64) (t : Thread) : XR := fVal w t (wSc w)

/-- A float instruction: computed exactly, rounded once (R165). -/
def issueFloat (i : Issue) (opc : Nat) (f : W64 → Thread → XR) (s : State) : Host.Outcome State Fault Refusal :=
  issueReg i opc (fun _ a _ th =>
    th.putDst a.word (encodeElem (wType a.word) (threadRound a.k a.word) (f a.word th)).1 (srcMarked a.word th)) s

/-- FADD (R165). -/
def execFadd (i : Issue) (s : State) : Host.Outcome State Fault Refusal := issueFloat i 0x40 (fun w t => (fA w t).add (fB w t)) s
/-- FSUB (R165). -/
def execFsub (i : Issue) (s : State) : Host.Outcome State Fault Refusal := issueFloat i 0x41 (fun w t => (fA w t).sub (fB w t)) s
/-- FMUL (R165). -/
def execFmul (i : Issue) (s : State) : Host.Outcome State Fault Refusal := issueFloat i 0x42 (fun w t => (fA w t).mul (fB w t)) s
/-- FFMA (R165). -/
def execFfma (i : Issue) (s : State) : Host.Outcome State Fault Refusal :=
  issueFloat i 0x43 (fun w t => ((fA w t).mul (fB w t)).add (fC w t)) s

/-- The canonical NaN of the TYPE (R51). -/
def fNan (w : W64) : Nat := (encodeElem (wType w) .near .nan).1

/-- FMIN and FMAX (R166): NaN where an operand is; a where they are equal. -/
def vFpick (takeB : XR → XR → Bool) (w : W64) (t : Thread) : Nat :=
  if (fA w t).isNan || (fB w t).isNan then fNan w
  else if takeB (fA w t) (fB w t) then fBits w t (wSb w) else fBits w t (wSa w)

/-- FMIN (R166). -/
def execFmin (i : Issue) (s : State) : Host.Outcome State Fault Refusal := issueVal i 0x44 (vFpick (fun a b => b.lt a)) s
/-- FMAX (R166). -/
def execFmax (i : Issue) (s : State) : Host.Outcome State Fault Refusal := issueVal i 0x45 (vFpick (fun a b => a.lt b)) s

/-- The sign bit of the TYPE. -/
def fSign (w : W64) : Nat := 2 ^ (fmtBits (wType w) - 1)

/-- FABS (R166). -/
def vFabs (w : W64) (t : Thread) : Nat := if (fA w t).isNan then fNan w else fBits w t (wSa w) % fSign w

/-- FNEG (R166). -/
def vFneg (w : W64) (t : Thread) : Nat :=
  if (fA w t).isNan then fNan w
  else (fBits w t (wSa w) + fSign w) % (2 * fSign w)

/-- FABS (R166). -/
def execFabs (i : Issue) (s : State) : Host.Outcome State Fault Refusal := issueVal i 0x46 vFabs s
/-- FNEG (R166). -/
def execFneg (i : Issue) (s : State) : Host.Outcome State Fault Refusal := issueVal i 0x47 vFneg s
/-- FDIV (R166). -/
def execFdiv (i : Issue) (s : State) : Host.Outcome State Fault Refusal := issueFloat i 0x48 (fun w t => (fA w t).div (fB w t)) s
/-- FSQRT (R166). -/
def execFsqrt (i : Issue) (s : State) : Host.Outcome State Fault Refusal := issueFloat i 0x49 (fun w t => (fA w t).sqrt) s

/-- FRCP, FRSQRT, FEXP2, FLOG2, FSIN, FCOS (R166): a free value within the bounds of R116. -/
def issueFn (i : Issue) (opc : Nat) (f : Fn) (s : State) : Host.Outcome State Fault Refusal :=
  issueLive i (onIssue i opc anyTime (fun a s =>
    (advanceLanes a.t a.g a.pc a.on (mapLanes a.t a.g a.on (fun l th =>
      th.putDst a.word (f.result false 0x0E (threadRound a.k a.word) (Config.candidate s.free l) (fA a.word th)).1
        (srcMarked a.word th)) s)).took)) s

/-- FRCP (R166). -/
def execFrcp (i : Issue) (s : State) : Host.Outcome State Fault Refusal := issueFn i 0x4A .rcp s
/-- FRSQRT (R166). -/
def execFrsqrt (i : Issue) (s : State) : Host.Outcome State Fault Refusal := issueFn i 0x4B .rsqrt s
/-- FEXP2 (R166). -/
def execFexp2 (i : Issue) (s : State) : Host.Outcome State Fault Refusal := issueFn i 0x4C .exp2 s
/-- FLOG2 (R166). -/
def execFlog2 (i : Issue) (s : State) : Host.Outcome State Fault Refusal := issueFn i 0x4D .log2 s
/-- FSIN (R166). -/
def execFsin (i : Issue) (s : State) : Host.Outcome State Fault Refusal := issueFn i 0x4E .sin s
/-- FCOS (R166). -/
def execFcos (i : Issue) (s : State) : Host.Outcome State Fault Refusal := issueFn i 0x4F .cos s

/-- FSETP (R166). -/
def execFsetp (i : Issue) (s : State) : Host.Outcome State Fault Refusal :=
  issueReg i 0x50 (fun _ a _ th => th.putCompare a.word (cmpFloat (wCmp a.word) (fA a.word th) (fB a.word th))) s

/-! ### Conversion (R167) -/

/-- The value of a CVT source (R167). -/
def cvtIn (w : W64) (t : Thread) : XR :=
  let v := t.regsAt (wSa w) (fmtRegs (wSrc w))
  if wSrc w = 0x10 ∧ wCvtU w then .int (v : Int) else decodeElem (wSrc w) v

/-- The register bits of a CVT result (R167): integers extended to 32 bits by sign, except uint8. -/
def cvtOut (k : Kernel) (w : W64) (x : XR) : Nat :=
  let r := threadRound k w
  match wType w with
  | 0x10 => if wCvtU w then (encodeInt 32 0 (2 ^ 32 - 1) r x).1 else (encodeElem 0x10 r x).1
  | 0x04 => unsign 32 (signed 8 (encodeElem 0x04 r x).1)
  | 0x06 => unsign 32 (signed 16 (encodeElem 0x06 r x).1)
  | c => (encodeElem c r x).1

/-- CVT (R167). -/
def execCvt (i : Issue) (s : State) : Host.Outcome State Fault Refusal :=
  issueReg i 0x51 (fun _ a _ th => th.putDst a.word (cvtOut a.k a.word (cvtIn a.word th)) (srcMarked a.word th)) s

end Sys2Proof.Machine
end

