-- ==== Sys2Proof/Machine/ThreadMem.lean ====
section
/-! DEFINITION. Loads, stores, atomics and fences of threads (R142-R147, R168-R173, R178), and the fill of an L1 line. -/

namespace Sys2Proof.Machine

/-! ### The L1 and the merging buffer -/

/-- The L1 line that holds a granule: its index and the line (R142). -/
def Tile.l1Find (x : Tile) (granule : Nat) : Option (Nat × L1Line) :=
  List.find? (fun (e : Nat × L1Line) => e.2.granule == granule) x.l1

/-- A tile's L1 line replaced. -/
def Tile.l1Put (x : Tile) (n : Nat) (l : L1Line) : Tile := { x with l1 := Sparse.insert x.l1 n l }

/-- The line that holds an address invalidated (R142). -/
def Tile.l1Drop (x : Tile) (pa : Nat) : Tile :=
  { x with l1 := List.filter (fun (e : Nat × L1Line) => e.2.granule != pa / 512) x.l1 }

/-- Bytes of a line with the poison of their bursts. -/
def L1Line.bytes (l : L1Line) (off n : Nat) : List PB :=
  (List.range n).map (fun i => (l.data.getD (off + i) 0, l.poison.getD ((off + i) / 32) false))

/-- A line with bytes stored into it; the poison of a burst changes as R209 says of memory. -/
def L1Line.store (l : L1Line) (off : Nat) (data : List PB) : L1Line :=
  let ks : KeySet := (List.range 16).foldl (fun k b => if l.poison.getD b false then KeySet.add k b else k) []
  let ks' := burstPoison off data ks
  { l with data := patch l.data off (plain data), poison := (List.range 16).map (fun b => KeySet.has ks' b) }

/-- A line with some of its bytes replaced, each by offset. -/
def L1Line.overlay (l : L1Line) (m : MergeEntry) : L1Line :=
  let base := m.granule % 2 * 256
  (byteRuns m.bytes).foldl (fun l r =>
    let data : List PB := r.2.mapIdx (fun i b => (b, KeySet.has m.poison (r.1 + i)))
    l.store (base + r.1) data) l

/-- The merging-buffer entry of a granule, by position (R143). -/
def Tile.mergeFind (x : Tile) (granule : Nat) : Option (Nat × MergeEntry) :=
  match x.merge.findIdx? (fun e => e.granule == granule) with
  | some n => (x.merge[n]?).map (fun e => (n, e))
  | none => none

/-- How a load meets the merging buffer (R143). -/
inductive Forward where
  | none                          -- no byte of it is buffered
  | all (data : List PB)
  | part (n : Nat)                -- some bytes are: entry n drains first

/-- The bytes of a load against the merging buffer (R143). -/
def Tile.forward (x : Tile) (pa n : Nat) : Forward :=
  match x.mergeFind (pa / 256) with
  | Option.none => .none
  | some (k, e) =>
    let offs := (List.range n).map (pa % 256 + ·)
    let has (o : Nat) : Bool := (Sparse.find? e.bytes o).isSome
    if offs.all has then .all (offs.map (fun o => (Sparse.read 0 e.bytes o, KeySet.has e.poison o)))
    else if offs.any has then .part k
    else .none

/-- Entry `e` with bytes merged into it, later bytes over earlier ones (R143). -/
def MergeEntry.put (e : MergeEntry) (off : Nat) (data : List PB) (coh : Bool) : MergeEntry :=
  let add (e : MergeEntry) (i : Nat × PB) : MergeEntry :=
    { e with bytes := Sparse.insert e.bytes (off + i.1) i.2.1
             poison := if i.2.2 then KeySet.add e.poison (off + i.1) else Sparse.drop e.poison (off + i.1) }
  let e := (data.mapIdx (fun i b => (i, b))).foldl add e
  { e with coh := e.coh || coh }

/-- A store to HBM or host memory (R142, R143): into its entry, else a free one, the oldest draining first where none is free; the
L1 line is updated where present, its age as it was (LOG 173). -/
def bufferStore (t pa : Nat) (coh : Bool) (data : List PB) (s : State) : Met × State :=
  let upd (x : Tile) : Tile :=
    match x.l1Find (pa / 512) with
    | some (n, l) => x.l1Put n (l.store (pa % 512) data)
    | none => x
  let s := s.modTile t upd
  match (s.tile t).mergeFind (pa / 256) with
  | some (n, e) => ({}, s.modTile t (fun x => { x with merge := setNth x.merge n (e.put (pa % 256) data coh) }))
  | none =>
    let w := if 8 ≤ (s.tile t).merge.length then drainNth t 0 s else ({}, s)
    let e : MergeEntry := ⟨pa / 256, coh, [], []⟩
    (w.1, w.2.modTile t (fun x => { x with merge := x.merge ++ [e.put (pa % 256) data coh] }))

/-- The entry that covers an address drained, before an atomic to it (R143). -/
def drainFor (t pa : Nat) (s : State) : Met × State :=
  match (s.tile t).mergeFind (pa / 256) with
  | some (n, _) => drainNth t n s
  | none => ({}, s)

/-- A fence (R147): at die scope and wider the merging buffer drains and the L1 is invalidated. -/
def fenceOp (t scope : Nat) (s : State) : Met × State :=
  if scope < 3 then ({}, s)
  else
    let w := drainAll t s
    (w.1, w.2.modTile t (fun x => x.l1Invalidate))

/-! ### Where an access goes -/

/-- What the address of a memory instruction reaches (R168). -/
inductive Place where
  | args (a : Nat)
  | spad (u off : Nat)
  | regs (off : Nat)
  | mem (pa : Nat) (coh : Bool)
deriving DecidableEq, Repr

/-- The place of a translated address; register space takes 32 and 64 bits (R169, R192). -/
def placeOf (pa n : Nat) (coh : Bool) : Except (Status × Nat) Place :=
  match paKind pa with
  | .hbm _ => .ok (.mem pa coh)
  | .host _ => .ok (.mem pa coh)
  | .spad u off => .ok (.spad u off)
  | .regs off => if n = 4 ∨ n = 8 then .ok (.regs off) else .error (.illegal, outOfRange)
  | .unassigned => .error (.xlateFault, xreasonCode .closed)

/-- The place of a memory instruction's address (R168, R169, R171): alignment first. -/
def locate (a : IssueAt) (th : Thread) (kind : XKind) (write : Bool) (s : State) : Except (Status × Nat) Place × State :=
  let v := memAddr a.word th
  let n := sizeBytes (wSize a.word)
  if v % n ≠ 0 then (.error (.illegal, outOfRange), s)
  else if wSpace a.word = 2 then (.ok (.args v), s)
  else if wSpace a.word = 1 then
    if v + n ≤ 2 ^ 23 then (.ok (.spad a.t v), s) else (.error (.illegal, outOfRange), s)
  else
    let x := translate (.tile (Fin.ofNat 96 a.t)) a.k.ctx.val v kind write s
    match x.1 with
    | .ok pa coh => (placeOf pa n coh, x.2)
    | f => (.error (xresStatus f), x.2)

/-- Whether a thread's access must wait for its own earlier load from the same bytes (R146). -/
def ownFillMeets (kind : XKind) (write : Bool) (s : State) (a : IssueAt) (lane : Nat) (th : Thread) : Bool :=
  if th.marked (wSa a.word) || (s.tile a.t).fills.isEmpty then false
  else
    match (locate a th kind write s).1 with
    | .ok (.mem pa _) =>
      (s.tile a.t).fills.any (fun f => f.group == a.g && f.lane == lane && overlap f.pa (sizeBytes f.size) pa (sizeBytes (wSize a.word)))
    | _ => false

/-- Whether a thread has a load that has not returned. -/
def ownFill (s : State) (t g lane : Nat) : Bool := (s.tile t).fills.any (fun f => f.group == g && f.lane == lane)

/-- Readiness where all earlier loads of the thread must have returned (R147, R148). -/
def loadsBack (s : State) (a : IssueAt) (lane : Nat) (_ : Thread) : Bool := !ownFill s a.t a.g lane

/-- Each lane of an issue in turn, in increasing order (R134), while no abort has stopped the tile. -/
def eachLane (a : IssueAt) (f : Nat → Thread → State → State) (s : State) : State :=
  a.on.foldl (fun s l =>
    match (if s.issues a.t then s.thread? a.t a.g l else none) with
    | some th => f l th s
    | none => s) s

/-- Whether the address registers of a memory instruction are marked (R141). -/
def addrMarked (w : W64) (th : Thread) : Bool := th.markedIn (wSa w) (if wSpace w = 0 then 2 else 1)

/-- An abort with ST_POISON (R141). -/
def poisonAbort (a : IssueAt) (s : State) : State := abortOnTile a.t .poison 0 a.pc 0 s

/-! ### Loads -/

/-- The registers of a load written from its bytes (R141, R169). -/
def Thread.loadPut (th : Thread) (dst size : Nat) (sx : Bool) (data : List PB) : Thread :=
  let n := sizeBytes size
  let v := ofBytes (plain data)
  let v := if sx && size < 2 then unsign 32 (signed (8 * n) v) else v
  th.setRegs dst v (anyPoison data) (sizeRegs size)

/-- The registers of a load no longer wait for it. -/
def Thread.unbusy (th : Thread) (dst n : Nat) : Thread := { th with busy := th.busy &&& ~~~(regMask dst n) }

/-- A load that returns at once. -/
def loadNow (a : IssueAt) (l : Nat) (data : List PB) (s : State) : State :=
  s.modThread a.t a.g l (fun th => th.loadPut (wDst a.word) (wSize a.word) (wSx a.word) data)

/-- A load that misses the L1 waits for its line; g0 never waits (R142, R155). -/
def loadMiss (a : IssueAt) (l pa : Nat) (coh : Bool) (s : State) : State :=
  let f : LoadFill := ⟨a.g, l, BitVec.ofNat 6 (wDst a.word), wSize a.word, wSx a.word, wStrm a.word, pa, coh, true⟩
  let s := s.modTile a.t (fun x => { x with fills := x.fills ++ [f] })
  let m := setBit (regMask (wDst a.word) (sizeRegs (wSize a.word))) 0 false
  pmcAdd (1 + dieOfTile a.t) 4 1 (s.modThread a.t a.g l (fun th => { th with busy := th.busy ||| m }))

/-- A load through the L1 (R142, R144). -/
def loadL1 (a : IssueAt) (l pa n : Nat) (coh : Bool) (s : State) : State :=
  match (s.tile a.t).l1Find (pa / 512) with
  | some (k, line) =>
    let s := if a.k.nru then s.modTile a.t (fun x => x.l1Put k { line with age := 0 }) else s
    loadNow a l (line.bytes (pa % 512) n) s
  | none => loadMiss a l pa coh s

/-- A load from HBM or host memory (R142, R143). -/
def loadMem (a : IssueAt) (l pa n : Nat) (coh : Bool) (s : State) : State :=
  match (s.tile a.t).forward pa n with
  | .all data => loadNow a l data s
  | .part k =>
    let w := drainNth a.t k s
    if w.1.dies ≠ 0 then abortIfLost a.t w.1 a.pc w.2 else loadL1 a l pa n coh w.2
  | .none => loadL1 a l pa n coh s

/-- A byte of the argument block (R168). -/
def argByte (k : Kernel) (i : Nat) : Byte := k.args.getD i 0

/-- One thread's load (R168-R171). -/
def loadLane (a : IssueAt) (l : Nat) (th : Thread) (s : State) : State :=
  let n := sizeBytes (wSize a.word)
  if addrMarked a.word th then poisonAbort a s
  else
    let p := locate a th .load false s
    match p.1 with
    | .error e => abortOnTile a.t e.1 e.2 a.pc 0 p.2
    | .ok (.args v) => loadNow a l (clean ((List.range n).map (fun i => argByte a.k (v + i)))) p.2
    | .ok (.spad u off) =>
      let r := spadRead (.tile (Fin.ofNat 96 a.t)) u off n p.2
      if r.met.dies ≠ 0 then abortIfLost a.t r.met a.pc p.2 else loadNow a l r.data p.2
    | .ok (.regs off) => loadNow a l (clean (toBytes (regRead p.2 (.tile (Fin.ofNat 96 a.t)) off n) n)) p.2
    | .ok (.mem pa coh) => loadMem a l pa n coh p.2

/-- LD (R168, R169). -/
def execLd (i : Issue) (s : State) : Host.Outcome State Fault Refusal :=
  issueServed i (onIssue i 0x80 (fun s a l th => !ownFillMeets .load false s a l th)
    (fun a s => advanceLanes a.t a.g a.pc a.on (eachLane a (loadLane a) s))) s

/-! ### Stores -/

/-- The bytes of a store with the marks of the registers they come from (R141, R169). -/
def storeData (w : W64) (th : Thread) : List PB :=
  let n := sizeBytes (wSize w)
  (toBytes (th.regsAt (wSb w) (sizeRegs (wSize w))) n).mapIdx (fun i b => (b, th.marked (wSb w + i / 4)))

/-- One thread's store (R168-R171). -/
def storeLane (a : IssueAt) (_ : Nat) (th : Thread) (s : State) : State :=
  let data := storeData a.word th
  if addrMarked a.word th then poisonAbort a s
  else
    let p := locate a th .store true s
    match p.1 with
    | .error e => abortOnTile a.t e.1 e.2 a.pc 0 p.2
    | .ok (.args _) => p.2
    | .ok (.spad u off) =>
      let w := spadWrite (.tile (Fin.ofNat 96 a.t)) u off data p.2
      abortIfLost a.t w.1 a.pc w.2
    | .ok (.regs off) =>
      regWrite (.tile (Fin.ofNat 96 a.t)) off data.length (BitVec.ofNat 64 (ofBytes (plain data))) p.2
    | .ok (.mem pa coh) =>
      let w := bufferStore a.t pa coh data p.2
      abortIfLost a.t w.1 a.pc w.2

/-- ST (R168, R169). -/
def execSt (i : Issue) (s : State) : Host.Outcome State Fault Refusal :=
  issueServed i (onIssue i 0x81 (fun s a l th => !ownFillMeets .store true s a l th)
    (fun a s => advanceLanes a.t a.g a.pc a.on (eachLane a (storeLane a) s))) s

/-! ### Atomics -/

/-- The operand of an atomic, and the compare value of ATOM.CAS (R172). -/
def atomOperands (w : W64) (th : Thread) : Nat × Nat :=
  let n := sizeRegs (wSize w)
  if wOpc w = 0x84 then (th.regsAt (wSb w) n, th.regsAt (wSb w + n) n) else (0, th.regsAt (wSb w) n)

/-- A word atomic at a scratchpad bank (R146): a poisoned word keeps its value (R209). -/
def spadAtom (op : AtomOp) (t off n c b : Nat) (s : State) : AtomRes × State :=
  let r := spadRead (.tile (Fin.ofNat 96 t)) t off n s
  let old := ofBytes (plain r.data)
  if r.met.poison then (⟨old, r.met⟩, s)
  else
    let w := spadWrite (.tile (Fin.ofNat 96 t)) t off (clean (toBytes (atomNew op (8 * n) old c b) n)) s
    (⟨old, r.met.and w.1⟩, w.2)

/-- The place of an atomic performed: HBM at its near cache, the own scratchpad at its bank, nowhere else (R146, R172). -/
def atomPlace (a : IssueAt) (op : AtomOp) (c b : Nat) (p : Place) (s : State) : Except (Status × Nat) AtomRes × State :=
  let n := sizeBytes (wSize a.word)
  match p with
  | .spad u off =>
    if u = a.t then
      let r := spadAtom op u off n c b s
      (.ok r.1, r.2)
    else (.error (.illegal, outOfRange), s)
  | .mem pa coh =>
    match paKind pa with
    | .hbm _ =>
      let w := drainFor a.t pa s
      let r := memAtom (threadPort w.2 a.t coh) op (n == 8) pa c b w.2
      (.ok ⟨r.1.old, r.1.met.and { dies := w.1.dies }⟩, r.2.modTile a.t (fun x => x.l1Drop pa))
    | _ => (.error (.illegal, outOfRange), s)
  | _ => (.error (.illegal, outOfRange), s)

/-- The atomic itself, between its fences (R172). -/
def atomOne (a : IssueAt) (op : AtomOp) (l : Nat) (th : Thread) (s : State) : State :=
  let o := atomOperands a.word th
  let p := locate a th .atomic true s
  match p.1 with
  | .error e => abortOnTile a.t e.1 e.2 a.pc 0 p.2
  | .ok q =>
    let r := atomPlace a op o.1 o.2 q p.2
    match r.1 with
    | .error e => abortOnTile a.t e.1 e.2 a.pc 0 r.2
    | .ok x =>
      if x.met.dies ≠ 0 then abortIfLost a.t x.met a.pc r.2
      else r.2.modThread a.t a.g l (fun th => th.setRegs (wDst a.word) x.old x.met.poison (sizeRegs (wSize a.word)))

/-- A fence of a thread instruction; one that meets a lost die aborts the kernel. -/
def fenceLane (a : IssueAt) (scope : Nat) (s : State) : State :=
  let w := fenceOp a.t scope s
  abortIfLost a.t w.1 a.pc w.2

/-- One thread's atomic, with a fence before and after it where FS asks for one (R173). -/
def atomLane (op : W64 → AtomOp) (a : IssueAt) (l : Nat) (th : Thread) (s : State) : State :=
  if srcMarked a.word th then poisonAbort a s
  else
    let s := fenceLane a (wFs a.word) s
    let s := if s.issues a.t then atomOne a (op a.word) l th s else s
    if s.issues a.t then fenceLane a (wFs a.word) s else s

/-- When an atomic may issue: no own load from its bytes under way, and none at all where it is a fence (R146, R173). -/
def atomReady (s : State) (a : IssueAt) (l : Nat) (th : Thread) : Bool :=
  if wFs a.word = 0 then !ownFillMeets .atomic true s a l th else !ownFill s a.t a.g l

/-- An atomic of an opcode. -/
def issueAtom (i : Issue) (opc : Nat) (op : W64 → AtomOp) (s : State) : Host.Outcome State Fault Refusal :=
  issueServed i (onIssue i opc atomReady
    (fun a s => advanceLanes a.t a.g a.pc a.on (eachLane a (atomLane op a) s))) s

/-- ATOM.ADD (R172). -/
def execAtomAdd (i : Issue) (s : State) : Host.Outcome State Fault Refusal := issueAtom i 0x82 (fun _ => .add) s
/-- ATOM.SWAP (R172). -/
def execAtomSwap (i : Issue) (s : State) : Host.Outcome State Fault Refusal := issueAtom i 0x83 (fun _ => .swap) s
/-- ATOM.CAS (R172). -/
def execAtomCas (i : Issue) (s : State) : Host.Outcome State Fault Refusal := issueAtom i 0x84 (fun _ => .cas) s
/-- ATOM.MIN (R172): signed with SX. -/
def execAtomMin (i : Issue) (s : State) : Host.Outcome State Fault Refusal :=
  issueAtom i 0x85 (fun w => if wSx w then .minS else .minU) s
/-- ATOM.MAX (R172): signed with SX. -/
def execAtomMax (i : Issue) (s : State) : Host.Outcome State Fault Refusal :=
  issueAtom i 0x86 (fun w => if wSx w then .maxS else .maxU) s

/-- FENCE (R147, R178). -/
def execFence (i : Issue) (s : State) : Host.Outcome State Fault Refusal :=
  issueServed i (onIssue i 0xB3 loadsBack
    (fun a s => advanceLanes a.t a.g a.pc a.on (eachLane a (fun _ _ s => fenceLane a (fld a.word 34 32) s) s))) s

/-! ### Fills -/

/-- The 16-bit Galois register of R144, shifted right (LOG 62). -/
def lfsrNext (x : BitVec 16) : BitVec 16 :=
  if x.getLsbD 0 then (x >>> 1) ^^^ 0xB400 else x >>> 1

/-- The lowest-numbered L1 line that a test accepts. -/
def l1Lowest (p : Nat → Bool) : Option Nat := (List.range 48).find? p

/-- Every age of the L1 one higher, up to 3 (R144). -/
def ageAll (l : Sparse L1Line) : Sparse L1Line :=
  l.map (fun e => (e.1, { e.2 with age := if e.2.age = 3 then 3 else e.2.age + 1 }))

/-- The line of age 3 that not-recently-used replacement takes, after as many rounds of ageing as it needs (R144). -/
def nruVictim (l : Sparse L1Line) : Nat → Nat × Sparse L1Line
  | 0 => (0, l)
  | f + 1 =>
    match l1Lowest (fun n => match Sparse.find? l n with | some x => x.age == 3 | none => false) with
    | some n => (n, l)
    | none => nruVictim (ageAll l) f

/-- A tile with a line filled, its victim by R144. -/
def Tile.install (x : Tile) (nru strm : Bool) (line : L1Line) : Tile :=
  let line := { line with age := if nru && strm then 3 else 2 }
  match l1Lowest (fun n => (Sparse.find? x.l1 n).isNone) with
  | some n => x.l1Put n line
  | none =>
    if nru then
      let v := nruVictim x.l1 4
      Tile.l1Put { x with l1 := v.2 } v.1 line
    else
      let n := x.lfsr.toNat * 48 / 65536
      Tile.l1Put { x with lfsr := lfsrNext x.lfsr } n line

/-- A line as memory holds it, with the stores still buffered over it (R143, R146). -/
def fillLine (x : Tile) (granule : Nat) (data : List PB) : L1Line :=
  let l : L1Line := ⟨granule, 2, plain data, (List.range 16).map (fun b => anyPoison ((data.drop (32 * b)).take 32))⟩
  (x.merge.filter (fun e => e.granule / 2 == granule)).foldl (fun l e => l.overlay e) l

/-- One load served from its line (R142). -/
def serveFill (t : Nat) (l : L1Line) (f : LoadFill) (s : State) : State :=
  s.modThread t f.group f.lane (fun th =>
    Thread.unbusy (th.loadPut f.dst.toNat f.size f.sx (l.bytes (f.pa % 512) (sizeBytes f.size))) f.dst.toNat (sizeRegs f.size))

/-- The line of a fill arrives: every load that waits for it gets its data, and the line is installed unless the L1 has been
invalidated since they missed (R142), at age 3 where one of them streams (LOG 173). -/
def fillArrives (t : Nat) (k : Kernel) (f : LoadFill) (s : State) : State :=
  let g := f.pa / 512
  let r := memRead (threadPort s t f.coh) (512 * g) 512 s
  let m : Met := { r.1.met with drops := 0 }
  let s := noteDrops t m r.2
  if m.dies ≠ 0 then abortIfLost t m 0 s
  else
    let line := fillLine (s.tile t) g r.1.data
    let mine := (s.tile t).fills.filter (fun x => x.pa / 512 == g)
    let s := s.modTile t (fun x => { x with fills := x.fills.filter (fun y => y.pa / 512 != g) })
    let s := forEach mine (serveFill t line) s
    if mine.any (fun x => x.install) && ((s.tile t).l1Find g).isNone then
      s.modTile t (fun x => x.install k.nru (mine.any (fun y => y.install && y.strm)) line)
    else s

/-- L1_FILL (R142): the fill of a waiting load. -/
def execL1Fill (t : TileId) (n : Nat) (hw : List HostByte) (s : State) : Host.Outcome State Fault Refusal :=
  .next (whenServed (fun s =>
    match s.runKernel t.val, (s.tile t.val).fills[n]? with
    | some k, some f => fillArrives t.val k f (hostStores hw s)
    | _, _ => s) s)

/-- MERGE_BUFFER_DRAIN (R143): entries drain in no specified order. -/
def execMergeBufferDrain (t : TileId) (n : Nat) (fl : List Flaw) (s : State) : Host.Outcome State Fault Refusal :=
  .next (whenLive (fun s => orWait (fun s =>
    let w := drainNth t.val n s
    abortIfLost t.val w.1 0 w.2) (meetFlaws t.val fl s)) s)

end Sys2Proof.Machine
end

