-- ==== Sys2Proof/Machine/ThreadCtl.lean ====
section
/-! DEFINITION. Control flow, barriers and signals of threads (R137, R138, R148, R174-R177), the issue of group-wide instructions
(R135, R136, R179), and the convergence watchdog (R139). -/

namespace Sys2Proof.Machine

/-! ### Threads that wait -/

/-- Threads put in a state. -/
def setLanes (t g : Nat) (l : List Nat) (st : TState) (s : State) : State := mapLanes t g l (fun _ th => { th with st := st }) s

/-- Threads go on to the next instruction, runnable. -/
def releaseLanes (t g pc : Nat) (l : List Nat) (s : State) : State := advanceLanes t g pc l (setLanes t g l .runnable s)

/-- Threads of a group that arrive at a wait, numbered in order of arrival (R139). -/
def arrive (t g : Nat) (l : List Nat) (st : TState) (s : State) : State :=
  let n := match (s.tile t).run with | some r => r.arrivals | none => 0
  let s := mapLanes t g l (fun _ th => { th with st := st, since := n }) s
  s.modRun t (fun r => { r with arrivals := r.arrivals + 1 })

/-! ### Barriers (R137, R138) -/

/-- BAR.G releases where every live thread of the group has arrived (R137). -/
def tryBarG (t g : Nat) (s : State) : State :=
  match s.group? t g with
  | some x =>
    let l := x.live
    if !l.isEmpty && l.all (fun e => e.2.st == .barG) then
      forEach l (fun e s => releaseLanes t g e.2.pc [e.1] s) s
    else s
  | none => s

/-- The threads of a tile blocked at BAR.T b: group, lane, thread. -/
def atBarT (r : Run) (b : Fin 8) : List (Nat × Nat × Thread) :=
  r.groups.flatMap (fun g => (g.live.filter (fun e => e.2.st == .barT b)).map (fun e => (g.num, e.1, e.2)))

/-- The expected count of a BAR.T (R138): the live threads of every group that LAUNCH placed on the tile. -/
def barTCount (k : Kernel) (r : Run) : Nat := k.ngroup * k.width - r.exited

/-- BAR.T b releases where its expected count has arrived (R138). -/
def tryBarT (t : Nat) (b : Fin 8) (s : State) : State :=
  match (s.tile t).run, s.runKernel t with
  | some r, some k =>
    let l := atBarT r b
    if !l.isEmpty && l.length == barTCount k r then
      forEach l (fun e s => releaseLanes t e.1 e.2.2.pc [e.2.1] s) s
    else s
  | _, _ => s

/-- BAR.G (R137, R175). -/
def execBarG (i : Issue) (s : State) : Host.Outcome State Fault Refusal :=
  issueLive i (onIssue i 0xA5 loadsBack (fun a s => tryBarG a.t a.g (arrive a.t a.g a.on .barG s))) s

/-- BAR.T (R138, R175). -/
def execBarT (i : Issue) (s : State) : Host.Outcome State Fault Refusal :=
  issueLive i (onIssue i 0xA6 loadsBack (fun a s =>
    let b : Fin 8 := Fin.ofNat 8 (fld a.word 34 32)
    tryBarT a.t b (arrive a.t a.g a.on (.barT b) s))) s

/-! ### Faults of convergence (R135, R139) -/

/-- What a tile was waiting for, as CDIEd_Tt_TGE_FAULT records it. -/
structure WaitRecord where
  kind     : Nat
  group    : Nat
  arrived  : Nat
  expected : Nat
  pc       : Nat

/-- CDIEd_Tt_TGE_FAULT. -/
def tgeWord (ctx : Nat) (w : WaitRecord) : W64 :=
  BitVec.ofNat 64 (1 + 2 * w.kind + 16 * (w.group % 256) + 2 ^ 12 * min w.arrived 4095 + 2 ^ 24 * min w.expected 4095 + 2 ^ 36 * ctx +
    2 ^ 42 * (w.pc / 8))

/-- A convergence fault (R135, R139): recorded in the tile, and the kernel aborts with ST_CONV_FAULT. -/
def convFault (t : Nat) (k : Kernel) (w : WaitRecord) (s : State) : State :=
  abortOnTile t .convFault t w.pc 0 (s.modTile t (fun x => { x with tgeFault := tgeWord k.ctx.val w }))

/-! ### Queues of the engines (R68, R112, R190) -/

/-- The uid of the next matrix operation of a tile. -/
def nextUid (x : Tile) : Nat :=
  (x.arr0.queue ++ x.arr0.exec ++ x.arr1.queue ++ x.arr1.exec).foldl (fun m o => max m (o.uid + 1)) 0

/-- The array that an MX.RUN goes to (R57, R68). -/
def chooseArray (x : Tile) (arr : Nat) : Nat :=
  if x.arr0.off then 1
  else if x.arr1.off then 0
  else if arr = 2 then
    if x.arr1.queue.length + x.arr1.exec.length < x.arr0.queue.length + x.arr0.exec.length then 1 else 0
  else arr

/-- An array of a tile. -/
def Tile.array (x : Tile) (a : Nat) : ArrayUnit := if a = 0 then x.arr0 else x.arr1

/-- An array of a tile replaced. -/
def Tile.putArray (x : Tile) (a : Nat) (u : ArrayUnit) : Tile := if a = 0 then { x with arr0 := u } else { x with arr1 := u }

/-- How the issue of a checked descriptor ends: refused, stalled on a full queue, or queued. -/
inductive Issued where
  | bad (b : Bad)
  | full
  | queued (x : Tile)

/-- The array that a descriptor of MX.RUN chooses at issue. -/
def mxArray (x : Tile) (d : List Byte) : Nat := chooseArray x (nfld (leAt d 0 4) 28 27)

/-- MX.RUN on an array of a tile (R59, R68, R182), with its lists and tag arrays as they stand. -/
def issueMx (k : Kernel) (d : List Byte) (feat : BitVec 8) (a : Nat) (x : Tile) : Issued :=
  let o := mxOpOf k (nextUid x) d
  match firstBad (mxChecks d o feat) with
  | some b => .bad b
  | none =>
    let u := x.array a
    let o := { o with held := o.listRanges.map (fun e => (e.1, spadBytes x e.1 e.2)) }
    if 4 ≤ u.queue.length then .full else .queued (x.putArray a { u with queue := u.queue ++ [o] })

/-- VX.RUN on a tile (R105, R112, R184). -/
def issueVx (k : Kernel) (d : List Byte) (feat : BitVec 8) (x : Tile) : Issued :=
  let o := vxOpOf k d
  match firstBad (vxChecks d o feat) with
  | some b => .bad b
  | none => if 4 ≤ x.vx.length then .full else .queued { x with vx := x.vx ++ [o] }

/-- A DX instruction on a tile (R187-R190). -/
def issueDx (kind : DxKind) (k : Kernel) (d : List Byte) (x : Tile) : Issued :=
  let o := dxFields k.kid kind d
  match firstBad (dxChecks d o) with
  | some b => .bad b
  | none => if 8 ≤ x.dx.length then .full else .queued { x with dx := x.dx ++ [o] }

/-- The issue of a group-wide instruction by its opcode, an MX.RUN on array `arr`. -/
def issueBy (opc : Nat) (k : Kernel) (d : List Byte) (feat : BitVec 8) (arr : Nat) (x : Tile) : Issued :=
  match opc with
  | 0xC0 => issueMx k d feat arr x
  | 0xC1 => issueVx k d feat x
  | 0xC2 => issueDx .copy k d x
  | 0xC3 => issueDx .fill k d x
  | _ => issueDx .red k d x

/-! ### Group-wide instructions (R135, R179) -/

/-- A copied descriptor checked and its operation queued; on a full queue the group stalls with the copy and the array chosen (R68, R135,
R179, R180). -/
def wideQueue (t : Nat) (k : Kernel) (h : WideHold) (lanes : List Nat) (s : State) : State :=
  let off (s : State) : State := s.modRun t (fun r => { r with wide := r.wide.filter (fun x => x.group != h.group) })
  match issueBy h.opc k h.desc s.glb.drvAccept h.arr (s.tile t) with
  | .bad b => abortOnTile t b.1 b.2 h.pc 0 s
  | .full => setLanes t h.group lanes .queueFull ((off s).modRun t (fun r => { r with wide := r.wide ++ [h] }))
  | .queued x => releaseLanes t h.group h.pc lanes (pmcAdd (1 + dieOfTile t) 3 1 (off (s.setTile t x)))

/-- A group-wide instruction whose guard holds in every live thread: its descriptor is copied (R135, R179). -/
def wideRun (t : Nat) (k : Kernel) (g pc : Nat) (w : W64) (l : List (Nat × Thread)) (s : State) : State :=
  match l with
  | [] => s
  | first :: _ =>
    let off := (first.2.reg (wSa w)).toNat
    let size := if wOpc w < 0xC2 then 128 else 64
    if first.2.marked (wSa w) then abortOnTile t .poison 0 pc 0 s
    else if off % size ≠ 0 ∨ spadEnd < off + size then illegal t pc outOfRange s
    else
      let d := spadBytes (s.tile t) off size
      if anyPoison d then abortOnTile t .poison 0 pc 0 s
      else wideQueue t k ⟨g, pc, wOpc w, plain d, mxArray (s.tile t) (plain d)⟩ (l.map (·.1)) s

/-- A group-wide instruction whose threads have converged: its word is checked, then its guard (R135, R154). It issues alone (R133). -/
def wideIssue (t : Nat) (k : Kernel) (g pc : Nat) (w : W64) (l : List (Nat × Thread)) (stalled : List (Nat × Nat)) (s : State) : State :=
  let lanes := l.map (·.1)
  let s := noteIssue t k.width g lanes (wOpc w) stalled false s
  if !wordOk k.nregs w then illegal t pc badEncoding s
  else if l.any (fun e => e.2.pmarked (fld w 2 0)) then abortOnTile t .poison 0 pc 0 s
  else if l.all (fun e => !guardOf w e.2) then releaseLanes t g pc lanes (pmcAdd (1 + dieOfTile t) 3 1 s)
  else if l.all (fun e => guardOf w e.2) then wideRun t k g pc w l s
  else convFault t k ⟨3, g, l.length, l.length, pc⟩ s

/-- A group whose live threads are all blocked at one group-wide instruction issues it where R132 chooses it (R135), its word fetched again
where the instruction cache has lost it (R388); a word found changed there leaves its threads to issue what it says (R145). -/
def converge (i : Issue) (opc : Nat) (s : State) : State :=
  let t := i.tile.val
  match (s.tile t).run, s.runKernel t, s.group? t i.group with
  | some r, some k, some x =>
    match x.live with
    | [] => s
    | first :: rest =>
      let pc := first.2.pc
      let l := first :: rest
      if r.stopped || !l.all (fun e => e.2.st == .atGroupWide && e.2.pc == pc) then s
      else
        let f := fetchWord t k pc true s
        match f.1 with
        | .waits => s.stall
        | .failed st => abortOnTile t st.1 st.2 pc 0 f.2
        | .word w =>
          if !isWide (wOpc w) then setLanes t i.group (l.map (·.1)) .runnable f.2
          else if wOpc w = opc ∧ f.2.chooses i pc then wideIssue t k i.group pc w l i.stalled f.2
          else f.2
  | _, _, _ => s

/-- Groups stalled on a full queue try again, the oldest first (R68, R112, R132, R190). -/
def retryStalled (t : Nat) (s : State) : State :=
  match (s.tile t).run with
  | some r =>
    forEach r.groups (fun g s =>
      match r.wide.find? (fun h => h.group == g.num), s.runKernel t with
      | some h, some k => if s.issues t then wideQueue t k h (g.live.map (·.1)) s else s
      | _, _ => s) s
  | none => s

/-- Whether given lanes are the live threads of a group, all blocked at a group-wide instruction. -/
def Group.awaits (g : Group) (lanes : List Nat) : Bool :=
  g.live.map (·.1) == lanes && g.live.all (fun e => e.2.st == .atGroupWide)

/-- Threads reach a group-wide instruction, with their loads returned, and block there; it issues once every live thread is there and R132
chooses it, at once or when the blocked threads are put forward again (R131, R135, R136). -/
def issueWide (i : Issue) (opc : Nat) (s : State) : Host.Outcome State Fault Refusal :=
  issueServed i (fun s =>
    match s.group? i.tile.val i.group with
    | some x =>
      if x.awaits (bitsSet i.lanes) then converge i opc s
      else
        onFetch i opc (fun a ths s' =>
          if ths.any (fun e => ownFill s' a.t a.g e.1) then s
          else converge i opc (arrive a.t a.g a.all .atGroupWide s')) s
    | none => s) s

/-- MX.RUN (R135, R179). -/
def execMxRun (i : Issue) (s : State) : Host.Outcome State Fault Refusal := issueWide i 0xC0 s
/-- VX.RUN (R135, R179). -/
def execVxRun (i : Issue) (s : State) : Host.Outcome State Fault Refusal := issueWide i 0xC1 s
/-- DX.COPY (R135, R188). -/
def execDxCopy (i : Issue) (s : State) : Host.Outcome State Fault Refusal := issueWide i 0xC2 s
/-- DX.FILL (R135, R188). -/
def execDxFill (i : Issue) (s : State) : Host.Outcome State Fault Refusal := issueWide i 0xC3 s
/-- DX.RED (R135, R189). -/
def execDxRed (i : Issue) (s : State) : Host.Outcome State Fault Refusal := issueWide i 0xC4 s

/-! ### Control flow (R174, R175) -/

/-- A branch to a target: a PC, or the target itself where it is no instruction's place (R174). -/
def branchOk (x : Int) : Bool := x % 8 == 0 && decide (0 ≤ x) && decide (x ≤ 2 ^ 25 - 8)

/-- The target of BRA and CALL. -/
def relTarget (a : IssueAt) : Int := (a.pc : Int) + signed 32 (wImm a.word)

/-- Threads that jump. -/
def jumpLanes (a : IssueAt) (f : Thread → Thread) (s : State) : State :=
  let x := relTarget a
  if branchOk x then mapLanes a.t a.g a.on (fun _ th => { f th with pc := x.toNat }) s else illegal a.t a.pc outOfRange s

/-- BRA (R174). -/
def execBra (i : Issue) (s : State) : Host.Outcome State Fault Refusal :=
  issueLive i (onIssue i 0xA0 anyTime (fun a s => jumpLanes a id s)) s

/-- CALL (R174). -/
def execCall (i : Issue) (s : State) : Host.Outcome State Fault Refusal :=
  issueLive i (onIssue i 0xA2 anyTime (fun a s => jumpLanes a (fun th => th.putDst a.word (a.pc + 8) false) s)) s

/-- One thread's BRX (R141, R174). -/
def brxLane (a : IssueAt) (l : Nat) (th : Thread) (s : State) : State :=
  let x := (th.reg (wSb a.word)).toNat
  if th.marked (wSb a.word) then poisonAbort a s
  else if branchOk x then s.modThread a.t a.g l (fun th => { th with pc := x })
  else illegal a.t a.pc outOfRange s

/-- BRX (R174). -/
def execBrx (i : Issue) (s : State) : Host.Outcome State Fault Refusal :=
  issueLive i (onIssue i 0xA1 anyTime (fun a s => eachLane a (brxLane a) s)) s

/-- A group whose threads have all exited ends (R130). -/
def endGroup (t g : Nat) (s : State) : State :=
  match s.group? t g with
  | some x =>
    if x.live.isEmpty then s.modRun t (fun r => { r with groups := r.groups.filter (fun y => y.num != g) }) else s
  | none => s

/-- What exits complete: a group, a BAR.G, a BAR.T (R137, R138); a group-wide instruction becomes ready (R135). -/
def afterExit (t g : Nat) (s : State) : State :=
  forEach (List.range 8) (fun b s => tryBarT t (Fin.ofNat 8 b) s) (tryBarG t g (endGroup t g s))

/-- EXIT (R131, R175). -/
def execExitT (i : Issue) (s : State) : Host.Outcome State Fault Refusal :=
  issueLive i (onIssue i 0xA3 anyTime (fun a s =>
    let s := setLanes a.t a.g a.on .exited s
    afterExit a.t a.g (s.modRun a.t (fun r => { r with exited := r.exited + a.on.length })))) s

/-- TRAP (R175). -/
def execTrap (i : Issue) (s : State) : Host.Outcome State Fault Refusal :=
  issueLive i (onIssue i 0xA4 anyTime (fun a s =>
    let code := wImm a.word % 65536
    abortOnTile a.t .aborted code a.pc code s)) s

/-! ### Signals and waits (R148, R176, R177) -/

/-- A kernel's remote signal that was refused or whose node is lost; the first of each is kept (R328, R329). -/
def noteRemote (kid : Nat) (win peer : Option Nat) (s : State) : State :=
  s.modKernel kid (fun k => { k with
    winFault := (match k.winFault with | some w => some w | none => win)
    peerLost := (match k.peerLost with | some p => some p | none => peer) })

/-- A signal of a kernel's thread or operation (R176, R181, R257, R261, R328). -/
def kernelSignal (t pc : Nat) (k : Kernel) (r : SigRef) (s : State) : State :=
  match refOf r.ref.toNat with
  | .loc vid =>
    let x := objLookup (1 + dieOfTile t) k.ctx.val vid .signal s
    match x.1 with
    | .ok p => postSignalOf (some (Fin.ofNat 4 (dieOfTile t))) p r.inc x.2
    | .error o => let st := objStatus o; abortOnTile t st.1 st.2 pc 0 x.2
  | .remote _ node =>
    let x := sendSignal r.ref.toNat r.inc 0 (.kernel k.kid) s
    match x.1 with
    | .sent => x.2.modKernel k.kid (fun k => { k with remote := k.remote + 1 })
    | .answered _ => x.2
    | .refused reason => noteRemote k.kid (some (reason + 4096 * node)) none x.2
    | .lost => noteRemote k.kid none (some node) x.2
  | .reserved => illegal t pc 0x01 s

/-- One thread's SIG (R148, R176): the merging buffer drains first. -/
def sigLane (inc : W64 → Thread → W32) (a : IssueAt) (_ : Nat) (th : Thread) (s : State) : State :=
  if srcMarked a.word th then poisonAbort a s
  else
    let w := drainAll a.t s
    if w.1.dies ≠ 0 then abortIfLost a.t w.1 a.pc w.2
    else kernelSignal a.t a.pc a.k ⟨BitVec.ofNat 64 (th.pair (wSa a.word)), inc a.word th⟩ w.2

/-- A signalling instruction. -/
def issueSig (i : Issue) (opc : Nat) (inc : W64 → Thread → W32) (s : State) : Host.Outcome State Fault Refusal :=
  issueServed i (onIssue i opc loadsBack (fun a s => advanceLanes a.t a.g a.pc a.on (eachLane a (sigLane inc a) s))) s

/-- SIG (R176). -/
def execSig (i : Issue) (s : State) : Host.Outcome State Fault Refusal := issueSig i 0xB0 (fun w th => th.reg (wSb w)) s
/-- SIG.I (R176). -/
def execSigI (i : Issue) (s : State) : Host.Outcome State Fault Refusal := issueSig i 0xB1 (fun w _ => BitVec.ofNat 32 (wImm w)) s

/-- One thread's WAITS (R177, R257, R261, R267): it blocks, and takes a wait record of its tile where one is free. -/
def waitsLane (a : IssueAt) (l : Nat) (th : Thread) (s : State) : State :=
  if srcMarked a.word th then poisonAbort a s
  else
    match refOf (th.pair (wSa a.word)) with
    | .reserved => illegal a.t a.pc 0x01 s
    | .remote _ _ => illegal a.t a.pc outOfRange s
    | .loc vid =>
      let x := objLookup (1 + dieOfTile a.t) a.k.ctx.val vid .wait s
      match x.1 with
      | .ok p =>
        let w : ThreadWait :=
          ⟨p, th.reg (wSb a.word), BitVec.ofNat 6 (wDst a.word), BitVec.ofNat 3 (wP a.word), wMod a.word != 0, false⟩
        takeWaitRecord a.t a.g l (x.2.modThread a.t a.g l (fun th => { th with st := .waiting w }))
      | .error o => let st := objStatus o; abortOnTile a.t st.1 st.2 a.pc 0 x.2

/-- WAITS (R177). -/
def execWaits (i : Issue) (s : State) : Host.Outcome State Fault Refusal :=
  issueServed i (onIssue i 0xB2 anyTime (fun a s => eachLane a (waitsLane a) s)) s

/-- Whether some thread of a tile waits with a registered record on an object for a target. -/
def recordUsed (x : Tile) (phys : Nat) (target : W32) : Bool :=
  match x.run with
  | some r => r.groups.any (fun g => g.threads.any (fun th =>
      match th.st with
      | .waiting w => w.registered && w.phys == phys && w.target == target
      | _ => false))
  | none => false

/-- A wait record that no thread uses any more is freed, and its wait cancelled (R177, R267). -/
def freeRecord (t phys : Nat) (target : W32) (s : State) : State :=
  if recordUsed (s.tile t) phys target then s
  else
    let keep (w : Wait) : Bool := match w.who with
      | .tile u => !(u.val == t && w.phys == phys && w.target == target)
      | _ => true
    let s := s.modTile t (fun x => { x with waits := x.waits.filter (fun w => !(w.phys == phys && w.target == target)) })
    keepWaits keep s

/-- A WAITS that times out (R177): p[P] is 0, g[DST] keeps its value, nothing is acquired. -/
def waitsTimeoutOp (t g l : Nat) (s : State) : State :=
  match s.thread? t g l with
  | some th =>
    match th.st with
    | .waiting w =>
      if w.timed then
        let s := s.modThread t g l (fun th => { th.putPred w.p.toNat false false with st := .runnable, pc := th.pc + 8 })
        if w.registered then freeRecord t w.phys w.target s else s
      else s
    | _ => s
  | none => s

/-- WAITS_TIMEOUT (R177). -/
def execWaitsTimeout (t : TileId) (g : Nat) (l : Fin 64) (s : State) : Host.Outcome State Fault Refusal :=
  .next (whenLive (waitsTimeoutOp t.val g l.val) s)

/-! ### The watchdog (R139) -/

/-- Whether a thread's state is a wait that the watchdog counts. -/
def watched : TState → Bool
  | .atGroupWide => true
  | .barG => true
  | .barT _ => true
  | _ => false

/-- The live thread of a group that has waited longest at a watched wait. -/
def oldestWait (l : List (Nat × Thread)) : Option Thread :=
  l.foldl (fun acc e =>
    if watched e.2.st then
      match acc with
      | some th => if e.2.since < th.since then some e.2 else some th
      | none => some e.2
    else acc) none

/-- Whether a thread has arrived at the wait of another. -/
def sameWait (w th : Thread) : Bool := th.st == w.st && (w.st != .atGroupWide || th.pc == w.pc)

/-- Whether a live thread that has not arrived stops the watchdog (R139). -/
def pausesWatch (s : State) (t g : Nat) (e : Nat × Thread) : Bool :=
  (match e.2.st with | .waiting _ => true | .queueFull => true | _ => false) ||
    (s.tile t).fills.any (fun f => f.group == g && f.lane == e.1 && (match paKind f.pa with | .host _ => true | _ => false))

/-- The record of a watched wait (R139). -/
def waitRecord (k : Kernel) (r : Run) (g : Group) (w : Thread) : WaitRecord :=
  let n := (g.live.filter (fun e => sameWait w e.2)).length
  match w.st with
  | .barT b => ⟨2, g.num, (atBarT r b).length, barTCount k r, w.pc⟩
  | .barG => ⟨1, g.num, n, g.live.length, w.pc⟩
  | _ => ⟨0, g.num, n, g.live.length, w.pc⟩

/-- A group's watchdog reaches its limit (R139). -/
def convWatchdog (t g : Nat) (s : State) : State :=
  match (s.tile t).run, s.runKernel t, s.group? t g with
  | some r, some k, some x =>
    if r.stopped then s
    else
      match oldestWait x.live with
      | some w =>
        if x.live.any (fun e => !sameWait w e.2 && pausesWatch s t g e) then s else convFault t k (waitRecord k r x w) s
      | none => s
  | _, _, _ => s

/-- CONV_WATCHDOG_EXPIRY (R139). -/
def execConvWatchdogExpiry (t : TileId) (g : Nat) (s : State) : Host.Outcome State Fault Refusal :=
  .next (whenLive (convWatchdog t.val g) s)

end Sys2Proof.Machine
end

