-- ==== Sys2Proof/Machine/Dma.lean ====
section
/-! DEFINITION. The tile DMA operations (R187-R190): start and completion of copies, fills and bulk reductions. -/

namespace Sys2Proof.Machine

/-- How many DX operations of a tile run. -/
def dxRunning (x : Tile) : Nat := (x.dx.filter (fun o => o.running)).length

/-- The first DX operation that has not started does, with at most four running (R190). -/
def dxStartTile (x : Tile) : Tile :=
  if 4 ≤ dxRunning x then x
  else
    match x.dx.findIdx? (fun o => !o.running) with
    | some n => { x with dx := x.dx.modify n (fun o => { o with running := true }) }
    | none => x

/-- DX_OP_START (R190). -/
def execDxOpStart (t : TileId) (s : State) : Host.Outcome State Fault Refusal :=
  .next (whenLive (fun s => s.modTile t.val dxStartTile) s)

/-- The physical address of a scratchpad offset of a tile (R192). -/
def spadPa (t off : Nat) : Nat := 0x200000000000 + 0x800000 * t + off

/-- A range translated page by page, also past a page that faults: the pieces that translate, and the first fault (R190). -/
def xlatPages (rq : Requester) (c : Nat) (k : XKind) (write : Bool) (off va n : Nat) : Nat → State → (List XPiece × Option XRes) × State
  | 0, s => (([], none), s)
  | f + 1, s =>
    if n = 0 then (([], none), s)
    else
      let m := min n (4096 - va % 4096)
      let r := translate rq c va k write s
      let rest := xlatPages rq c k write (off + m) (va + m) (n - m) f r.2
      match r.1 with
      | .ok pa coh => ((⟨off, pa, m, coh⟩ :: rest.1.1, rest.1.2), rest.2)
      | x => ((rest.1.1, some x), rest.2)

/-- One row of a side of a transfer as pieces of physical address (R188). -/
def dxRowSide (t : Nat) (k : Kernel) (kind : XKind) (write spad : Bool) (at_ : Int) (len : Nat) (s : State) :
    (List XPiece × Option XRes) × State :=
  if spad then (([⟨0, spadPa t at_.toNat, len, false⟩], none), s)
  else xlatPages (.tile (Fin.ofNat 96 t)) k.ctx.val kind write 0 (unsign 64 at_) len (len / 4096 + 2) s

/-- A row of a transfer: source and destination pieces. -/
abbrev DxRow := List XPiece × List XPiece

/-- The starts of the rows of a transfer (R188): source and destination of each, plane by plane. -/
def dxRowStarts (o : DxOp) : List (Int × Int) :=
  (List.range o.count2).flatMap (fun (z : Nat) => (List.range o.count1).map (fun (y : Nat) =>
    ((o.src.toNat : Int) + (z : Int) * o.sstr2 + (y : Int) * o.sstr1, (o.dst.toNat : Int) + (z : Int) * o.dstr2 + (y : Int) * o.dstr1)))

/-- The kind of access of the destination in XLAT_CTXc_FAULT (R232). -/
def dxDstKind (o : DxOp) : XKind := if o.kind = .red then .reduction else .dxWrite

/-- The parts of destination pieces that lie where source pieces do in their row. -/
def coveredBy (src dst : List XPiece) : List XPiece :=
  dst.flatMap (fun p => src.filterMap (fun q =>
    let lo := max p.off q.off
    let hi := min (p.off + p.len) (q.off + q.len)
    if lo < hi then some ⟨lo, p.pa + (lo - p.off), hi - lo, p.coh⟩ else none))

/-- Every row of a transfer translated, of one that faults the bytes of which both sides translate, and the first fault (R190). -/
def dxPlan (t : Nat) (k : Kernel) (o : DxOp) (s : State) : (List DxRow × Option Bad) × State :=
  (dxRowStarts o).foldl (fun (acc : (List DxRow × Option Bad) × State) e =>
    let a := if o.kind = .fill then (([], none), acc.2) else dxRowSide t k .dxRead false o.ssp e.1 o.len0 acc.2
    let b := dxRowSide t k (dxDstKind o) true o.dsp e.2 o.len0 a.2
    match a.1.2, b.1.2 with
    | none, none => ((acc.1.1 ++ [(a.1.1, b.1.1)], acc.1.2), b.2)
    | x, y =>
      let bad := worse (match x with | some e => xresStatus e | none => (.ok, 0)) (match y with | some e => xresStatus e | none => (.ok, 0))
      ((acc.1.1 ++ [(a.1.1, if o.kind = .fill then b.1.1 else coveredBy a.1.1 b.1.1)], match acc.1.2 with | some b => some b | none => some bad), b.2)) (([], none), s)

/-- The writes of row i that take effect in an operation that faults: any of them may (R190). -/
def someWrites (salt i : Nat) (ps : List XPiece) : List XPiece :=
  (ps.flatMap (fun p => (unitPieces p.pa p.len).map (fun u => (⟨p.off + (u.1 - p.pa), u.1, u.2, p.coh⟩ : XPiece)))).filter
    (fun u => (Config.freeBits salt (u.pa + 2 ^ 48 * i)).getLsbD 8)

/-- Pieces of a row read through the tile's DX port, each at its place in the row. -/
def dxRead (t : Nat) (ps : List XPiece) (s : State) : ReadRes × State :=
  ps.foldl (fun (acc : ReadRes × State) p =>
    let r := busRead (.tile (Fin.ofNat 96 t)) (dxPort acc.2 t p.coh) p.pa p.len acc.2
    (⟨acc.1.data ++ clean (List.replicate (p.off - acc.1.data.length) 0) ++ r.1.data, acc.1.met.and r.1.met⟩, r.2)) ((⟨[], {}⟩ : ReadRes), s)

/-- Pieces written, or combined by the adder banks (R189). -/
def dxWrite (t : Nat) (o : DxOp) (ps : List XPiece) (data : List PB) (s : State) : Met × State :=
  ps.foldl (fun (acc : Met × State) p =>
    let d := (data.drop p.off).take p.len
    let w :=
      match (if o.kind = .red then dxRedOf o.redOp o.redFmt else none) with
      | some (op, fmt) =>
        let w := memReduce (dxPort acc.2 t p.coh) op fmt p.pa d acc.2
        ({ w.1 with poison := false }, w.2)
      | none => busWrite (.tile (Fin.ofNat 96 t)) (dxPort acc.2 t p.coh) p.pa d acc.2
    (acc.1.and w.1, w.2)) (({} : Met), s)

/-- The sources of every row read. -/
def dxGather (t : Nat) (o : DxOp) (rows : List DxRow) (s : State) : (List (List PB) × Met) × State :=
  rows.foldl (fun (acc : (List (List PB) × Met) × State) r =>
    if o.kind = .fill then ((acc.1.1 ++ [clean (patternBytes (toBytes o.src.toNat 8) o.len0)], acc.1.2), acc.2)
    else
      let x := dxRead t r.1 acc.2
      ((acc.1.1 ++ [x.1.data], acc.1.2.and x.1.met), x.2)) (([], {}), s)

/-- The bytes of a row of which those that are also source bytes of the DX.COPY are unspecified (R188): free values there. -/
def dxMix (src dst : List XPiece) (salt : Nat) (data : List PB) : List PB :=
  dst.flatMap (fun p =>
    ((data.drop p.off).take p.len).mapIdx (fun i b =>
      if inPieces src (p.pa + i) then ((Config.freeBits salt (p.pa + i)).setWidth 8, b.2) else b))

/-- The destination of every row written, in the order of the rows: where rows overlap, the later one's bytes stay (LOG 174).
Destination bytes of a DX.COPY that are also source bytes take free values (R188). -/
def dxScatter (t : Nat) (o : DxOp) (src : List XPiece) (salt : Nat) (rows : List (DxRow × List PB)) (s : State) : Met × State :=
  rows.foldl (fun (acc : Met × State) r =>
    let data := if o.kind = .copy then dxMix src r.1.2 salt r.2 else r.2
    let w := dxWrite t o r.1.2 data acc.2
    (acc.1.and w.1, w.2)) (({} : Met), s)

/-- A transfer (R188-R190): the earlier stores of the kernel's threads reach memory first (R136); where a row does not translate, which
writes take effect is free. -/
def dxTransfer (t : Nat) (k : Kernel) (o : DxOp) (s : State) : State :=
  let w0 := drainAll t s
  let p := dxPlan t k o w0.2
  let rows := p.1.1
  let notHbm := o.kind == .red && rows.any (fun r => r.2.any (fun q => !hbmVisible q.pa))
  if notHbm then abortOnTile t .illegal outOfRange 0 0 p.2
  else
    let s := p.2.took
    let salt := p.2.free
    let rows := match p.1.2 with
      | none => rows
      | some _ => rows.mapIdx (fun i r => (r.1, someWrites salt i r.2))
    let g := dxGather t o rows s
    let src := rows.flatMap (·.1)
    let w := dxScatter t o src salt (rows.zip g.1.1) g.2
    let m := ({ dies := w0.1.dies } : Met).and (g.1.2.and w.1)
    let bad := m.poison || g.1.1.any anyPoison
    let w := (w.1, lastStrict g.2.out.length w.2)
    let s := noteDrops t { m with dies := 0 } w.2
    let s := if bad then s.modKernel k.kid (fun k => { k with poison := true }) else s
    match p.1.2 with
    | some b => abortOnTile t b.1 b.2 0 0 s
    | none =>
      if m.dies ≠ 0 then abortIfLost t m 0 s
      else
        match o.sig with
        | some r => kernelSignal t 0 k r s
        | none => s

/-- DX_OP_COMPLETE (R190): the n-th DX operation of a tile, where it runs. -/
def execDxOpComplete (t : TileId) (n : Nat) (hw : List HostByte) (fl : List Flaw) (s : State) :
    Host.Outcome State Fault Refusal :=
  .next (whenLive (fun s => orWait (fun s =>
    match (s.tile t.val).dx[n]?, s.runKernel t.val with
    | some o, some k =>
      if o.running then
        let s := (hostStores hw s).modTile t.val (fun x => { x with dx := dropNth x.dx n })
        retryStalled t.val (dxTransfer t.val k o s)
      else s
    | _, _ => s) (meetFlaws t.val fl s)) s)

end Sys2Proof.Machine
end

