-- ==== Sys2Proof/Machine/KernelLife.lean ====
section
/-! DEFINITION. The life of a kernel on a tile (R127-R130, R140, R149, R288, R301): start, admission of groups, stop after an abort
elsewhere, end. -/

namespace Sys2Proof.Machine

/-- Groups of a kernel that can be resident on a tile (R129). -/
def residentGroups (k : Kernel) : Nat := min (2048 / k.width) (98304 / (k.nregs * k.width))

/-- A group as admitted: every thread at the entry point with every register 0 (R130, R156). -/
def newGroup (k : Kernel) (n : Nat) : Group := ⟨n, List.replicate k.width {}⟩

/-- Whether preemption keeps a kernel from starting on a tile (R299). -/
def preemptBlocks (s : State) (t : Nat) (k : Kernel) : Bool :=
  let c := s.ctx k.ctx.val
  (c.preempt.isSome && c.preMask.getLsbD t) || (c.state == .preempted && k.tiles &&& c.preMask != 0)

/-- The kernel that a free tile starts next (R288, R299). -/
def nextKernel (s : State) (t : Nat) : Option Kernel :=
  ((s.tile t).waiting.filterMap (fun kid => s.kernel? kid)).find? (fun k => !preemptBlocks s t k)

/-- A tile on which a kernel has just started (R130, R144, R145, R301). -/
def startTile (s : State) (t : Nat) (k : Kernel) (x : Tile) : Tile :=
  let mine := some (64 * k.gen + k.ctx.val)
  let x := if x.lastCtx = mine then x else x.spadClear
  let n := min (residentGroups k) k.ngroup
  { x with
    waiting := x.waiting.filter (· != k.kid)
    lastCtx := mine
    l1 := []
    lfsr := 0xACE1
    fills := []
    run := some
      { kid := k.kid, groups := (List.range n).map (newGroup k), next := n, exited := 0, stopped := false
        startTel := (s.die (dieOfTile t)).tel, icache := [], arrivals := 0 } }

/-- A free tile of a die in service, which the LAUNCH reaches from H (R21), starts its next kernel. -/
def startKernel (t : Nat) (s : State) : State :=
  if (s.tile t).run.isSome || s.glb.tileBusy == some t || s.fenced (dieOfTile t) || s.withdrawn t
      || s.parted none (dieOfTile t) then s
  else
    match nextKernel s t with
    | none => s
    | some k =>
      let s := trace (1 + dieOfTile t) 5 (k.kid + 2 ^ 32 * t + 2 ^ 64 * k.entry.toNat) (s.modTile t (startTile s t k))
      s.modKernel k.kid (fun k => { k with todo := setBit k.todo t false, live := setBit k.live t true })

/-- KERNEL_START (R130, R288). -/
def execKernelStart (t : TileId) (s : State) : Host.Outcome State Fault Refusal := .next (whenLive (startKernel t.val) s)

/-- The next group of a running kernel admitted where there is room (R130). -/
def admitGroup (t : Nat) (s : State) : State :=
  match (s.tile t).run, s.runKernel t with
  | some r, some k =>
    if !r.stopped && decide (r.next < k.ngroup) && decide (r.groups.length < residentGroups k) then
      s.modRun t (fun r => { r with groups := r.groups ++ [newGroup k r.next], next := r.next + 1 })
    else s
  | _, _ => s

/-- GROUP_ADMIT (R130). -/
def execGroupAdmit (t : TileId) (s : State) : Host.Outcome State Fault Refusal := .next (whenLive (admitGroup t.val) s)

/-- KERNEL_ABORT_REMOTE_STOP (R140): a tile stops issue for a kernel that has aborted elsewhere. -/
def execKernelAbortRemoteStop (t : TileId) (s : State) : Host.Outcome State Fault Refusal :=
  .next (whenLive (fun s =>
    match s.runKernel t.val with
    | some k => if k.abort.isSome then stopTile t.val s else s
    | none => s) s)

/-- Whether the engines of a tile have completed everything (R77, R125, R190). -/
def Tile.enginesIdle (x : Tile) : Bool :=
  x.arr0.queue.isEmpty && x.arr0.exec.isEmpty && x.arr1.queue.isEmpty && x.arr1.exec.isEmpty && x.vx.isEmpty && x.dx.isEmpty

/-- Whether the threads of a kernel are done on a tile: all exited, or stopped by an abort. -/
def threadsDone (k : Kernel) (r : Run) : Bool := r.stopped || (r.groups.isEmpty && decide (k.ngroup ≤ r.next))

/-- The kernel of a tile ends there (R130, R149): its merging buffer drains, and what waits for kernels to end goes on. -/
def endKernel (t : Nat) (s : State) : State :=
  match (s.tile t).run, s.runKernel t with
  | some r, some k =>
    if threadsDone k r && (s.tile t).enginesIdle && (s.tile t).fills.isEmpty then
      let w := drainAll t s
      let s := abortIfLost t w.1 0 w.2
      let s := s.modTile t (fun x => { x with run := none })
      let s := s.modKernel k.kid (fun k => { k with live := setBit k.live t false })
      settleTileReset (settleKernels (finishKernel k.kid s))
    else s
  | _, _ => s

/-- KERNEL_END (R149). -/
def execKernelEnd (t : TileId) (s : State) : Host.Outcome State Fault Refusal := .next (whenServed (endKernel t.val) s)

end Sys2Proof.Machine
end

