-- ==== Sys2Proof/Machine/Engine.lean ====
section
/-! DEFINITION. What the engines of a tile share: rounding with the draws of the grain generator (R49, R50, R53), elements in the
scratchpad (R33, R72, R84, R106), tiles converted with their saturation handling (R96-R102, R115), and scrambled elements (R76). -/

namespace Sys2Proof.Machine

/-- A list cut into pieces of n, at most f of them. -/
def piecesOf (n : Nat) (l : List α) : Nat → List (List α)
  | 0 => []
  | f + 1 => if l.isEmpty then [] else l.take n :: piecesOf n (l.drop n) f

/-! ### Rounding and draws -/

/-- The rounding mode in force (R49): code 3 is the context default. -/
def rndOf (k : Kernel) (r : Nat) : Nat := if r = 3 then k.rnd else r

/-- The n-th draw of a tile's generator in a context (R53): tile Tt starts t × 2^96 steps along the stream of the seed, which repeats
after 2^128 − 1 steps. -/
def grainDraw (s : State) (t c n : Nat) : BitVec 16 :=
  Config.grain (s.step (1 + dieOfTile t)) (s.ctx c).seed ((t * 2 ^ 96 + n) % (2 ^ 128 - 1))

/-- Draws that a tile's generator has given in a context. -/
def drawsTaken (s : State) (t c : Nat) : Nat := Sparse.read 0 (s.tile t).grain c

/-- Draws taken (R50, R53). -/
def takeDraws (t c n : Nat) (s : State) : State :=
  s.modTile t (fun x => { x with grain := Sparse.write 0 x.grain c (drawsTaken s t c + n) })

/-- The rounding of one conversion: mode, and the draw of a stochastic one. -/
def roundWith (mode : Nat) (draw : BitVec 16) : Round :=
  match mode with
  | 0 => .near
  | 2 => .stoch draw
  | _ => .zero

/-! ### Elements -/

/-- Bytes and elements of a packing group of a format of `b` bits (R33). -/
def packGroup (b : Nat) : Nat × Nat := if b = 4 then (1, 2) else if b = 6 then (3, 4) else (b / 8, 1)

/-- The `n` low fields of `b` bits of a number, lowest first. -/
def fieldsOf (b v : Nat) : Nat → List Nat
  | 0 => []
  | n + 1 => v % 2 ^ b :: fieldsOf b (v / 2 ^ b) n

/-- Fields of `b` bits as one number, the first lowest. -/
def ofFields (b : Nat) : List Nat → Nat
  | [] => 0
  | x :: xs => x % 2 ^ b + 2 ^ b * ofFields b xs

/-- Whether a byte that holds part of field i of a packing group is poisoned. -/
def fieldBad (b i : Nat) (part : List PB) : Bool := anyPoison ((part.take (ceilDiv ((i + 1) * b) 8)).drop (i * b / 8))

/-- The elements that bytes hold, group by group, with their poison; the last group may be cut short. -/
def unpackElems (b : Nat) (data : List PB) : Nat → List (Nat × Bool)
  | 0 => []
  | n + 1 =>
    let g := packGroup b
    let part := data.take g.1
    (fieldsOf b (ofBytes (plain part)) g.2).mapIdx (fun i v => (v, fieldBad b i part)) ++ unpackElems b (data.drop g.1) n

/-- The bytes that hold elements, group by group. -/
def packElems (b : Nat) (l : List (Nat × Bool)) : Nat → List PB
  | 0 => []
  | n + 1 =>
    let g := packGroup b
    let part := l.take g.2
    (toBytes (ofFields b (part.map (·.1))) g.1).map (fun x => (x, part.any (·.2))) ++ packElems b (l.drop g.2) n

/-- Element bits of `n` elements of a format from an offset of a scratchpad: nothing beyond the last of them is read (R107). -/
def elemsAt (x : Tile) (base f n : Nat) : List (Nat × Bool) :=
  let b := fmtBits f
  (unpackElems b (spadBytes x base (ceilDiv (n * b) 8)) (ceilDiv n (packGroup b).2)).take n

/-- The value of an element with its block scale (R33). -/
def scaledElem (f bits scale : Nat) : XR :=
  if scale = 255 then .nan else (decodeElem f bits).mul (.dy 1 ((scale : Int) - 127))

/-- `n` values of a format from an offset of a scratchpad, each with its poison; a block format's scales follow its tile's data
(R84). -/
def valuesAt (x : Tile) (base f n : Nat) : List (XR × Bool) :=
  let l := elemsAt x base f n
  if isMx f then
    let sc := spadBytes x (base + tileData f) (ceilDiv n 32)
    l.mapIdx (fun i e => let q := sc.getD (i / 32) (0, false); (scaledElem f e.1 q.1.toNat, e.2 || q.2))
  else l.map (fun e => (decodeElem f e.1, e.2))

/-! ### Results -/

/-- A result before its conversion: an exact value, which R108 and R116 (where e = 0) round once; bits; or a function of R116 whose
evaluation errs. -/
inductive Res where
  | val (x : XR)
  | bits (x : XR) (b : Nat)
  | fn (g : Fn) (x : XR)

/-- A result converted to a format (R51, R108, R116): element bits, and whether it counts as saturated. -/
def Res.encode (wide : Bool) (f : Nat) (r : Round) (cand : BitVec 128) : Res → Nat × Bool
  | .val x => encodeElem f r x
  | .bits _ b => (b, false)
  | .fn g x => g.result wide f r cand x

/-- A result as a value: of a function, the one that its evaluation gives (R116, R117). -/
def Res.value (wide : Bool) (cand : BitVec 128) : Res → XR
  | .val x => x
  | .bits x _ => x
  | .fn g x => g.eval wide cand x

/-- The candidate for a result (R54, R116), from the free-value counter. -/
def candAt (salt i : Nat) : BitVec 128 := Config.candidate salt i

/-- emax of an MX element format (R114). -/
def emaxOf : Nat → Int
  | 0x08 => 8 | 0x09 => 15 | 0x0A => 2 | 0x0B => 4 | 0x0C => 2 | _ => 0

/-- The scale of a block of values (R114). -/
def blockScale (f : Nat) (l : List XR) : Nat :=
  let amax := l.foldl (fun (m : XR) x => if m.lt x.abs then x.abs else m) .zero
  if l.any (fun x => x.isNan || x.isInf) then 255
  else if amax.isZero then 0
  else (min 254 (max 0 (amax.log2 - emaxOf f + 127))).toNat

/-- Results converted to a format other than a block format, with their draws from `d` on: bits, saturated, poisoned. -/
def encodePlain (wide : Bool) (f mode salt : Nat) (draw : Nat → BitVec 16) (l : List (Res × Bool)) :
    List (Nat × Bool × Bool) :=
  l.mapIdx (fun i e =>
    let q := e.1.encode wide f (roundWith mode (draw i)) (candAt salt i)
    (q.1, q.2, e.2))

/-- One block converted (R114): its scale and its elements; poison spreads over the block, whose scale all its elements decide. -/
def encodeBlock (wide : Bool) (f mode salt : Nat) (draw : Nat → BitVec 16) (i0 : Nat) (l : List (Res × Bool)) :
    (Nat × Bool) × List (Nat × Bool × Bool) :=
  let vals := l.mapIdx (fun i e => e.1.value wide (candAt salt (i0 + i)))
  let x := blockScale f vals
  let bad := l.any (·.2)
  ((x, bad), vals.mapIdx (fun i v =>
    let q := encodeElem f (roundWith mode (draw (i0 + i))) (v.mul (.dy 1 (127 - (x : Int))))
    (q.1, q.2, bad)))

/-- Blocks of 32 converted, in turn. -/
def encodeBlocks (wide : Bool) (f mode salt : Nat) (draw : Nat → BitVec 16) (i0 : Nat) (l : List (Res × Bool)) :
    Nat → List ((Nat × Bool) × List (Nat × Bool × Bool))
  | 0 => []
  | n + 1 =>
    if l.isEmpty then []
    else encodeBlock wide f mode salt draw i0 (l.take 32) :: encodeBlocks wide f mode salt draw (i0 + 32) (l.drop 32) n

/-- Results in a format: elements (bits, saturated, poisoned) and the scales of their blocks. -/
def encodeAll (wide : Bool) (f mode salt : Nat) (draw : Nat → BitVec 16) (l : List (Res × Bool)) :
    List (Nat × Bool × Bool) × List (Nat × Bool) :=
  if isMx f then
    let b := encodeBlocks wide f mode salt draw 0 l (ceilDiv l.length 32)
    (b.flatMap (·.2), b.map (·.1))
  else (encodePlain wide f mode salt draw l, [])

/-! ### Saturation (R97, R100-R102) -/

/-- Saturated elements of a tile, poisoned ones not counted (R97). -/
def satCountOf (l : List (Nat × Bool × Bool)) : Nat := (l.filter (fun e => e.2.1 && !e.2.2)).length

/-- A tile's tag (R81). -/
def tagWord (f : Nat) (wide : Bool) (n : Nat) : Nat := f + (if wide then 32 else 0) + 256 * min n 255

/-- Legacy reporting (R102): the tile's counters, and the context's saturation vector when EVENT becomes set. -/
def satLegacy (t : Nat) (k : Kernel) (n : Nat) (s : State) : State :=
  let past := decide (k.limit < n)
  let was := (s.tile t).satEvent
  let s := s.modTile t (fun x => { x with
    satCount := satAdd x.satCount n
    satOver := if past then satAdd x.satOver 1 else x.satOver
    satEvent := x.satEvent || past })
  if past && !was then sendMsix (Fin.ofNat 34 (kernelFn s k)) (s.ctx k.ctx.val).satvec.toNat s else s

/-- Whether a tile of `n` saturated elements is converted again into its wide format (R97): that format. -/
def rerunFmt (k : Kernel) (f n : Nat) (wslot : Bool) : Option Nat :=
  if k.legacy || !wslot || decide (n ≤ k.limit) then none else wideFmt f

/-- A tile re-run counted in its kernel (R99). -/
def noteRerun (kid : Nat) (s : State) : State := s.modKernel kid (fun k => { k with reruns := k.reruns + 1 })

/-- A kernel whose completion carries ST_POISON (R78, R125). -/
def notePoison (kid : Nat) (s : State) : State := s.modKernel kid (fun k => { k with poison := true })

/-! ### Hazards (R76) -/

/-- Whether a range met a write noted meanwhile. -/
def hitBy (hits : List (Nat × Nat)) (off n : Nat) : Bool := hits.any (fun h => overlap h.1 h.2 off n)

/-- Free bytes over a range of a scratchpad, the poison of its words kept. -/
def scramble (salt off n : Nat) (x : Tile) : Tile :=
  x.spadPut off ((List.range n).map (fun i => ((Config.freeBits salt (off + i)).setWidth 8, KeySet.has x.spoison ((off + i) / 8))))

end Sys2Proof.Machine
end

