-- ==== Sys2Proof/Machine/Matrix.lean ====
section
/-! DEFINITION. The matrix arrays (R34-R48, R55-R104): the start of operations with its interlock, and their completion: operands, exact
sums and bounds, rescaling, re-runs, tags. -/

namespace Sys2Proof.Machine

/-! ### Regions (R69, R73, R82, R84, R183) -/

/-- The base of a tile of a region, and whether its list entry is poisoned. -/
def tileBase (x : Tile) (r : Region) (n : Nat) : Nat × Bool :=
  if r.list then
    let b := spadBytes x (r.base + 4 * n) 4
    (ofBytes (plain b), anyPoison b)
  else (r.base + n * r.stride, false)

/-- The format of a tile of a region (R82), and whether its tag is poisoned. -/
def tileFmt (x : Tile) (r : Region) (fmt n : Nat) : Nat × Bool :=
  if r.tagv then
    let b := spadBytes x (r.tags + 2 * n) 2
    (ofBytes (plain b) % 32, anyPoison b)
  else (fmt, false)

/-- Entry n of a rescale table (R87). -/
structure Entry16 where
  scale : XR
  bias  : XR
  zpc   : Int
  ofmt  : Nat
  relu  : Bool
  ozp   : Nat
  bad   : Bool

/-- Entry n read. -/
def entryAt (x : Tile) (tbl n : Nat) : Entry16 :=
  let b := spadBytes x (tbl + 16 * n) 16
  let v := plain b
  ⟨decodeFloat f32 (leAt v 0 4), decodeFloat f32 (leAt v 4 4), signed 32 (leAt v 8 4), leAt v 12 1 % 32, nbit (leAt v 13 1) 0, leAt v 14 1,
    anyPoison b⟩

/-- The first-choice format of C tiles of column block j (R87, R88). -/
def cFmt (x : Tile) (o : MxOp) (j : Nat) : Nat :=
  match o.tbl with
  | some p => (entryAt x p (128 * j)).ofmt
  | none => o.fmtC

/-- The ranges of a region: its tiles, its tag array, its list (R85). -/
def regionRanges (x : Tile) (r : Region) (count : Nat) (slot : Nat → Nat) : List (Nat × Nat) :=
  (List.range count).map (fun n => ((tileBase x r n).1, slot n)) ++ (if r.tagv then [(r.tags, 2 * count)] else []) ++
    (if r.list then [(r.base, 4 * count)] else [])

def aRanges (x : Tile) (o : MxOp) : List (Nat × Nat) :=
  regionRanges x o.a (o.mt * o.kt) (fun n => slotSize (tileFmt x o.a o.fmtA n).1)
def bRanges (x : Tile) (o : MxOp) : List (Nat × Nat) :=
  regionRanges x o.b (o.nt * o.kt) (fun n => slotSize (tileFmt x o.b o.fmtB n).1)
/-- Bytes of the slot of C tile n: of its format, of the format in which it is read with ACC = 1 (R82), a wide slot whole (R84). -/
def cTileSlot (x : Tile) (o : MxOp) (n : Nat) : Nat :=
  max (wideSlot o (cFmt x o (n % o.nt))) (if o.acc then slotSize (tileFmt x o.c o.fmtC n).1 else 0)

/-- The C region. -/
def cRanges (x : Tile) (o : MxOp) : List (Nat × Nat) := regionRanges x o.c (o.mt * o.nt) (cTileSlot x o)

/-- Ranges widened to whole 256 B units (R69). -/
def wholeUnits (l : List (Nat × Nat)) : List (Nat × Nat) :=
  l.map (fun e => (e.1 / 256 * 256, ceilDiv (e.1 + e.2) 256 * 256 - e.1 / 256 * 256))

/-! ### Start (R67-R69) -/

/-- The operations of a tile issued before another and not complete. -/
def earlierOps (x : Tile) (uid : Nat) : List MxOp :=
  (x.arr0.queue ++ x.arr0.exec ++ x.arr1.queue ++ x.arr1.exec).filter (fun o => decide (o.uid < uid))

/-- Whether the interlock lets an operation start (R69). -/
def interlockOpen (x : Tile) (o : MxOp) : Bool :=
  let mine := wholeUnits (aRanges x o ++ bRanges x o ++ cRanges x o)
  (earlierOps x o.uid).all (fun e => !rangesMeet mine (wholeUnits (cRanges x e)))

/-- Whether an operation may run back to back with the one before it (R67). -/
def backToBack (e o : MxOp) : Bool := e.df == o.df && (o.df != 1 || e.intPath == o.intPath)

/-- Array passes of a mode, which are the group contributions of each group too (R42, R47). -/
def passesOf (arith : Nat) : Nat := if arith = 0 then 1 else if arith = 1 then 3 else 10

/-- Row blocks of K that an operation streams, its sidecar's included (R65, R93). -/
def MxOp.rowBlocks (o : MxOp) : Nat := ceilDiv (ceilDiv o.k 32 * 32) 128 + (if o.nout = 0 then 0 else 1)

/-- Array cycles of the passes over an extent in chunks of c (R64, R65): of all of them, and of the last. -/
def chunkCycles (c n : Nat) : Nat × Nat :=
  let last := max (n - (ceilDiv n c - 1) * c) 128
  ((ceilDiv n c - 1) * c + last, last)

/-- Array cycles of the passes of an operation and of its last pass (R65, R93), with nothing to lengthen them. -/
def passCycles (o : MxOp) : Nat × Nat :=
  let k32 := ceilDiv o.k 32 * 32
  let side := 128 * ceilDiv o.nout 32
  let c := if o.arith = 0 then 1024 else 512
  let folded (blocks extent : Nat) : Nat × Nat :=
    let p := chunkCycles c extent
    (passesOf o.arith * blocks * o.rowBlocks * p.1, p.2)
  match o.df with
  | 0 => folded o.nt o.m
  | 2 => folded o.mt o.n
  | _ =>
    if o.intPath then (o.mt * o.nt * (max k32 128 + side), if o.nout = 0 then max k32 128 else side)
    else let p := 4 * k32 + side; (passesOf o.arith * o.mt * o.nt * p, p)

/-- The array cycles that have passed at least since the last pass of an executing operation ended, when the next operation starts
behind the ones after it (R67, R68): at its first stationary load, under the last of their passes; in OS, after it. -/
def sinceLastPass (later : List MxOp) : Nat :=
  match later.getLast? with
  | none => 0
  | some e => (later.map (fun o => (passCycles o).1)).sum - (if e.df = 1 then 0 else (passCycles e).2)

/-- Whether the executing operations of an array let the next one start (R67): it is back to back with the last of them, and the oldest
is at most in the 272 cycles that its last results take. -/
def roomBehind (exec : List MxOp) (o : MxOp) : Bool :=
  match exec, exec.getLast? with
  | _ :: later, some e => backToBack e o && decide (sinceLastPass later < 272)
  | _, _ => true

/-- The operation at the head of an array's queue starts where it may (R67-R69). -/
def mxStart (a : Nat) (x : Tile) : Tile :=
  let u := x.array a
  match u.queue with
  | o :: q => if roomBehind u.exec o && interlockOpen x o then x.putArray a { u with queue := q, exec := u.exec ++ [o] } else x
  | [] => x

/-- An operation starts; its slot of the queue is free then, and groups stalled on a full queue try again (R68). -/
def mxOpStart (t a : Nat) (s : State) : State :=
  let n (s : State) := ((s.tile t).array a).queue.length
  let s' := s.modTile t (mxStart a)
  if n s' = n s then s' else retryStalled t s'

/-- MX_OP_START (R68). -/
def execMxOpStart (t : TileId) (a : Fin 2) (s : State) : Host.Outcome State Fault Refusal :=
  .next (whenLive (mxOpStart t.val a.val) s)

/-! ### Operands (R72, R84, R92) -/

/-- The first `n` of the 128 elements of vector v of a tile, with their block scales; whether the vector, which the array reads whole
(R72, R78), carries poison. -/
def vectorAt (x : Tile) (base f v n : Nat) : List XR × Bool :=
  let l := elemsAt x (base + v * (16 * fmtBits f)) f 128
  if isMx f then
    let sc := spadBytes x (base + tileData f + 4 * v) 4
    ((l.take n).mapIdx (fun i e => scaledElem f e.1 (sc.getD (i / 32) (0, false)).1.toNat), l.any (·.2) || anyPoison sc)
  else ((l.take n).map (fun e => decodeElem f e.1), l.any (·.2))

/-- Row m of A, or column n of B (R72), block by block of K: as it stands in each of some views of the tile. -/
def operandRow (vs : List Tile) (r : Region) (fmt kt k m : Nat) : List (List (List XR × Bool)) :=
  (List.range kt).map (fun b => vs.map (fun x =>
    let n := m / 128 * kt + b
    vectorAt x (tileBase x r n).1 (tileFmt x r fmt n).1 (m % 128) (min 128 (k - 128 * b))))

/-- One of some views of the same thing. -/
def oneOf (d : α) (l : List α) (w : Nat) : α :=
  match l with
  | [a] => a
  | l => l.getD (w % l.length) d

/-- A vector as a result takes it: a mixture of its elements in the views, and of whether it is poisoned (R76, LOG 117). -/
def mixVector (salt key : Nat) (vs : List (List XR × Bool)) : List XR × Bool :=
  match vs with
  | [] => ([], false)
  | [v] => v
  | v :: _ =>
    let w (i : Nat) : Nat := (Config.freeBits salt (256 * key + i)).toNat
    (v.1.mapIdx (fun i e => oneOf e (vs.map (fun u => u.1.getD i .zero)) (w i)), oneOf false (vs.map (·.2)) (w 255))

/-- An operand as an element of the result takes it (R76): each of its elements as it stands in one of the views, zero at the outliers, and
whether one is poisoned (R78, R92). -/
def mixRow (salt key : Nat) (outl : List Nat) (blocks : List (List (List XR × Bool))) : List XR × Bool :=
  let l := blocks.mapIdx (fun b vs => mixVector salt (key + b) vs)
  ((l.flatMap (·.1)).mapIdx (fun i v => if outl.contains i then XR.zero else v), l.any (·.2))

/-- The outlier channels (R92). -/
def outliers (x : Tile) (o : MxOp) : List Nat :=
  (List.range o.nout).map (fun i => ofBytes (plain (spadBytes x (o.outList + 2 * i) 2)))

/-! ### What is checked when it is read (R73, R83, R88, R90, R92, R183) -/

/-- Whether some tiles of a region lie as R73 asks. -/
def basesOk (x : Tile) (r : Region) (tiles : List Nat) (slot : Nat → Nat) : Bool :=
  tiles.all (fun n => let b := (tileBase x r n).1; b % 256 == 0 && decide (b + slot n ≤ spadEnd))

/-- Whether a list entry or a tag of some tiles of a region is poisoned. -/
def regionBad (x : Tile) (r : Region) (tiles : List Nat) (tagged : Bool) : Bool :=
  tiles.any (fun n => (tileBase x r n).2 || (tagged && (tileFmt x r 0 n).2))

/-- The checks of the tags of some tiles of an operand region (R83). -/
def tagChecks (x : Tile) (r : Region) (arith fmt : Nat) (tiles : List Nat) : List (Bool × Bad) :=
  let fs := tiles.map (fun n => (tileFmt x r fmt n).1)
  [(fs.any (fun f => !fmtKnown f), badReserved),
   (fs.any (fun f => intClass f != intClass fmt || !operandOk arith f), badRange)]

/-- Whether a C tile may enter the accumulator (R83). -/
def accFmtOk (o : MxOp) (f : Nat) : Bool := if o.intPath then intClass f || f == 0x10 else resultOk o.arith false false f

/-- The tiles of a region in some rows of blocks, `n` to a row. -/
def tilesOf (rows cols : List Nat) (n : Nat) : List Nat := rows.flatMap (fun i => cols.map (fun j => i * n + j))

/-- The checks of what the results in some row blocks and column blocks are made of, when the engine reads it. A poisoned entry of the
table other than the first of its tile only poisons its column (R88). Where something is poisoned and something else illegal, poison is
met first (LOG 143). -/
def mxBlockChecks (x : Tile) (o : MxOp) (rows cols : List Nat) : List (Bool × Bad) :=
  let ks := List.range o.kt
  let ta := tilesOf rows ks o.kt
  let tb := tilesOf cols ks o.kt
  let tc := tilesOf rows cols o.nt
  let heads := match o.tbl with | some p => cols.map (fun j => entryAt x p (128 * j)) | none => []
  let ents := match o.tbl with
    | some p => cols.flatMap (fun j => (List.range (min 128 (o.n - 128 * j))).map (fun h => entryAt x p (128 * j + h)))
    | none => []
  let outl := outliers x o
  let outBad := anyPoison (spadBytes x o.outList (2 * o.nout))
  [(regionBad x o.a ta true || regionBad x o.b tb true || regionBad x o.c tc o.acc || outBad || heads.any (·.bad), (.poison, 0))] ++
  tagChecks x o.a o.arith o.fmtA ta ++ tagChecks x o.b o.arith o.fmtB tb ++
  [(heads.any (fun e => !fmtKnown e.ofmt), badReserved),
   (heads.any (fun e => !resultOk o.arith o.intPath true e.ofmt), badRange),
   (!o.c.list && heads.any (fun e => decide (o.c.stride < cSlot o e.ofmt)), badRange),
   (!o.intPath && ents.any (fun e => !e.bad && e.zpc != 0), badRange),
   (!basesOk x o.a ta (fun n => slotSize (tileFmt x o.a o.fmtA n).1), badRange),
   (!basesOk x o.b tb (fun n => slotSize (tileFmt x o.b o.fmtB n).1), badRange),
   (o.acc && tc.any (fun n => !fmtKnown (tileFmt x o.c o.fmtC n).1), badReserved),
   (o.acc && tc.any (fun n => !accFmtOk o (tileFmt x o.c o.fmtC n).1), badRange),
   (!basesOk x o.c tc (cTileSlot x o), badRange),
   (outl.any (fun v => decide (o.k ≤ v)) || !((outl.zip (outl.drop 1)).all (fun e => decide (e.1 < e.2))), badRange),
   (decide (0 < o.nout) && (!basesOk x o.sideA rows (fun _ => 32768) || !basesOk x o.sideB cols (fun _ => 32768)), badRange)]

/-- Whether the C region of an operation meets A or B (R73). -/
def mxOverlaps (x : Tile) (o : MxOp) : Bool := rangesMeet (cRanges x o) (aRanges x o ++ bRanges x o)

/-- The checks of an operation when the engine reads what its descriptor points to. -/
def mxRunChecks (x : Tile) (o : MxOp) : List (Bool × Bad) :=
  mxBlockChecks x o (List.range o.mt) (List.range o.nt) ++ [(mxOverlaps x o, badRange)]

/-! ### Sums (R35-R47) -/

/-- Whether a value is a multiple of 2^q (R38). -/
def multipleOf (x : XR) (q : Int) : Bool :=
  match x with
  | .fin m e _ => decide (q ≤ e) || m % ((2 ^ (q - e).toNat : Nat) : Int) == 0
  | _ => true

/-- A value with infinities and NaN as 0: as aligned (R37). -/
def alignable (x : XR) : XR :=
  match x with
  | .fin m e d => .fin m e d
  | _ => .zero

/-- The largest magnitude of a group (R37). -/
def groupMax (l : List XR) : XR :=
  l.foldl (fun (m : XR) x => let y := (alignable x).abs; if m.lt y then y else m) .zero

/-- Word width W of a mode (R37). -/
def wordWidth (arith : Nat) : Int := if arith = 0 then 15 else if arith = 1 then 29 else 59

/-- Whether a group of one operand is in window (R38). -/
def inWindow (arith : Nat) (l : List XR) : Bool :=
  let e := (groupMax l).log2
  l.all (fun x => multipleOf (alignable x) (e - wordWidth arith + 1))

/-- α, β_in and β_out of a mode on the float path (R46). -/
def coeffs (arith : Nat) : XR × XR × XR :=
  match arith with
  | 0 => (.dy 1 (-22), .zero, .dy 1 (-8))
  | 1 => (.dy 1 (-44), .dy 1 (-23), .dy 1 (-22))
  | _ => (.dy 1 (-51), .dy 1 (-51), .dy 1 (-50))

/-- The unit of υ (R47). -/
def underflowUnit (arith : Nat) : XR := if arith = 0 then .dy 1 (-150) else .dy 1 (-1074)

/-- Two operand lists cut into groups of 32 (R36). -/
def groupsOf (a b : List XR) : Nat → List (List XR × List XR)
  | 0 => []
  | n + 1 => if a.isEmpty then [] else (a.take 32, b.take 32) :: groupsOf (a.drop 32) (b.drop 32) n

def groups32 (a b : List XR) : List (List XR × List XR) := groupsOf a b (ceilDiv a.length 32)

/-- The β term of a group (R45). -/
def betaTerm (arith : Nat) (g : List XR × List XR) : XR :=
  let c := coeffs arith
  let w := inWindow arith g.1 && inWindow arith g.2
  ((if w then c.2.1 else c.2.2).mul (groupMax g.1)).mul (groupMax g.2)

/-- An element aligned to its group's exponent: round_half_even(v × 2^(W − 1 − E)) (R37). -/
def alignElem (w e : Int) (x : XR) : Int :=
  match x with
  | .fin m q d =>
    let k := q + w - 1 - e
    let r := roundQ .near false (m.natAbs * 2 ^ k.toNat) ((d + 1) * 2 ^ (-k).toNat)
    if m < 0 then -(r : Int) else r
  | _ => 0

/-- An aligned word cut into n slices, most significant first (R41). -/
def sliceWord : Nat → Int → List Int
  | 0, _ => []
  | 1, r => [r]
  | n + 1, r =>
    let s := (r + 2 ^ 14) % 2 ^ 15 - 2 ^ 14
    sliceWord n ((r - s) / 2 ^ 15) ++ [s]

/-- The passes of a slicing mode (R42, R43). -/
def slicePairs (n : Nat) : List (Nat × Nat) :=
  (List.range n).flatMap (fun i => (List.range (n - i)).map (fun j => (i, j)))

/-- The exact sum of products of words. -/
def dotInt (a b : List Int) : Int := ((a.zip b).map (fun e => e.1 * e.2)).foldl (· + ·) 0

/-- The contributions of a group to the accumulator, in the order of the passes (R39, R42, R43): x is the slice of the stationary operand,
which is A where `isA` and else B (R60, R64). One beyond fp64's range goes unrounded into the double-double (LOG 169). -/
def contributions (arith : Nat) (isA : Bool) (g : List XR × List XR) : List XR :=
  let w := wordWidth arith
  let ea := (groupMax g.1).log2
  let eb := (groupMax g.2).log2
  if (groupMax g.1).isZero || (groupMax g.2).isZero then []
  else
    let qa := g.1.map (alignElem w ea)
    let qb := g.2.map (alignElem w eb)
    if arith = 0 then [toF f32 (.dy (dotInt qa qb) (ea + eb - 28))]
    else
      let n := if arith = 1 then 2 else 4
      let sa := qa.map (sliceWord n)
      let sb := qb.map (sliceWord n)
      (slicePairs n).map (fun p =>
        let v := dotInt (sa.map (fun l => l.getD (if isA then p.1 else p.2) 0)) (sb.map (fun l => l.getD (if isA then p.2 else p.1) 0))
        .dy v (15 * (2 * (n : Int) - 2 - p.1 - p.2) + ea + eb - 2 * (w - 1)))

/-- The accumulator's type in a mode (R34). -/
def accFloat (arith : Nat) : FloatFmt := if arith = 0 then f32 else f64

/-- The groups that one sweep of passes streams (R64, R93): in WS and IS a block of 128 K-elements, the sidecar's after the last; in OS
all of K with the sidecar's groups. -/
def sweeps (df : Nat) (main side : List (List XR × List XR)) : List (List (List XR × List XR)) :=
  if df = 1 then [main ++ side] else piecesOf 4 main main.length ++ [side]

/-- The accumulator after every contribution, sweep by sweep and pass by pass, the groups of a pass in the order of K (R39, R40, R64). -/
def accumulate (arith df : Nat) (c : XR) (main side : List (List XR × List XR)) : Pair :=
  (sweeps df main side).foldl (fun p sweep =>
    let t := sweep.map (contributions arith (df == 2))
    (List.range (passesOf arith)).foldl (fun p i => t.foldl (fun p l => p.add (accFloat arith) (l.getD i .zero)) p) p)
    (Pair.of (accFloat arith) c)

/-- A dot product before its conversion: exact value, accumulator error E (R95), whether the accumulator is no longer finite (R40). -/
structure Acc where
  value : XR
  err   : XR
deriving DecidableEq, Repr

/-- The largest finite value of a float format. -/
def maxFinite (f : FloatFmt) : XR := decodeFloat f (maxBits f)

/-- The float path and the slicing modes (R37-R47): `s0` is what already stands in S, `c` what already stands in the accumulator. No
contribution of a group exceeds 64 times the product of its maxima; where those and c leave room for overflow, R40's test of the
accumulator decides. -/
def floatAcc (arith df : Nat) (c s0 : XR) (main side : List (List XR × List XR)) : Acc :=
  let gs := main ++ side
  let terms := gs.flatMap (fun g => (g.1.zip g.2).map (fun e => e.1.mul e.2))
  let exact := terms.foldl XR.add c
  match exact with
  | .fin _ _ _ =>
    let mag := terms.foldl (fun (m : XR) x => m.add x.abs) s0
    let beta := gs.foldl (fun (m : XR) g => m.add (betaTerm arith g)) .zero
    let under := (underflowUnit arith).mul (.int ((gs.length * passesOf arith : Nat)))
    let err := (((coeffs arith).1.mul mag).add beta).add under
    let top := gs.foldl (fun (m : XR) g => m.add (((groupMax g.1).mul (groupMax g.2)).mul (.int 64))) c.abs
    if top.le (maxFinite (accFloat arith)) then ⟨exact, err⟩
    else
      let p := accumulate arith df c main side
      match p.hi with
      | .fin _ _ _ => ⟨exact, err⟩
      | x => ⟨x, .zero⟩
  | x => ⟨x, .zero⟩

/-- The accumulator's integer range (R35). -/
def accLimit : Int := 2 ^ 47 - 1

/-- A sum on the integer path, limited to the accumulator's range, and whether it was (R35). -/
def intAcc (c : Int) (a b : List XR) : Int × Bool :=
  let v (x : XR) : Int := roundToInt .near x
  clampInt (-accLimit) accLimit (((a.zip b).map (fun e => v e.1 * v e.2)).foldl (· + ·) c)

/-! ### Conversion of results (R44, R89, R95) -/

/-- The output zero point as a tile's first-choice format reads it (R87). -/
def ozpOf (first : Nat) (v : Nat) : Int :=
  if first = 0x05 then (v : Int) else if first = 0x04 ∨ first = 0x06 then signed 8 v else 0

/-- y of R89 before RELU and the rounding, with its error (R95). -/
def rescale (e : Option Entry16) (x : Acc) : Acc :=
  match e with
  | none => x
  | some e => ⟨((x.value.sub (.int e.zpc)).mul e.scale).add e.bias, e.scale.abs.mul x.err⟩

/-- A result element in a format (R44, R51, R89, R95): the y that the staging computes lies within the error of the exact one, and what
is written, saturated or not, is that y converted. -/
def resultElem (f first : Nat) (r : Round) (cand : BitVec 128) (e : Option Entry16) (x : Acc) : Nat × Bool :=
  let p := rescale e x
  let v := nearTo cand p.value p.err
  let y := match e with | some e => if e.relu && v.isNeg then XR.zero else v | none => v
  let z : Int := match e with | some e => ozpOf first e.ozp | none => 0
  match intRange f, y with
  | some (lo, hi), .fin _ _ _ =>
    let q := clampInt lo hi (roundToInt r y + z)
    (unsign (fmtBits f) q.1, q.2)
  | _, _ => encodeElem f r y

/-! ### One tile of C -/

/-- What a result element is made of. -/
structure CElem where
  acc  : Acc
  sat  : Bool                    -- the integer accumulator was limited (R35)
  bad  : Bool                    -- poisoned (R78, R88)
  free : Bool                    -- of an array with a cell fault (R58), or its lists or tags have been written meanwhile (R76)

/-- Operands in blocks of K, each as it stands in every view: rows of A, columns of B, their sidecar parts. -/
structure Operands where
  a  : Array (List (List (List XR × Bool)))
  b  : Array (List (List (List XR × Bool)))
  sa : Array (List (List (List XR × Bool)))
  sb : Array (List (List (List XR × Bool)))

/-- Every operand of an operation in some views of its tile (R72, R92). -/
def operandsOf (vs : List Tile) (o : MxOp) : Operands :=
  ⟨((List.range o.m).map (operandRow vs o.a o.fmtA o.kt o.k)).toArray,
   ((List.range o.n).map (operandRow vs o.b o.fmtB o.kt o.k)).toArray,
   if o.nout = 0 then #[] else ((List.range o.m).map (operandRow vs o.sideA 0x00 1 o.nout)).toArray,
   if o.nout = 0 then #[] else ((List.range o.n).map (operandRow vs o.sideB 0x00 1 o.nout)).toArray⟩

/-- The stored element of C that enters the accumulator with ACC = 1 (R39, R83). -/
def cStored (x : Tile) (o : MxOp) (m n : Nat) : XR × Bool :=
  if o.acc then
    let q := m / 128 * o.nt + n / 128
    let f := (tileFmt x o.c o.fmtC q).1
    let h := if fmtBits f = 4 then n % 2 else 0
    (valuesAt x ((tileBase x o.c q).1 + (m % 128 * 128 + n % 128) * fmtBits f / 8) f (h + 1)).getD h (.zero, false)
  else (.zero, false)

/-- The accumulator of an element, sidecar merged (R35, R93-R95). -/
def accOf (o : MxOp) (c : XR) (a b sa sb : List XR) : Acc × Bool :=
  let side := groups32 sa sb
  if o.intPath then
    let v := intAcc (roundToInt .near c) a b
    if o.nout = 0 then (⟨.int v.1, .zero⟩, v.2)
    else
      let mag := (a.zip b).foldl (fun (m : XR) e => m.add (e.1.mul e.2).abs) c.abs
      (floatAcc 0 o.df (.int v.1) mag [] side, v.2)
  else (floatAcc o.arith o.df c c.abs (groups32 a b) side, false)

/-- Element (m, n) of an operation: each element of its operands, and the stored one, as it stands in one of the views (R76). -/
def cElem (vs : List Tile) (o : MxOp) (p : Operands) (outl : List Nat) (salt : Nat) (free : Bool) (ent : Option Entry16) (m n : Nat) :
    CElem :=
  let key (kind : Nat) : Nat := 2 ^ 50 + ((m * 2 ^ 16 + n) * 8 + kind) * 2 ^ 10
  let a := mixRow salt (key 0) outl (p.a.getD m [])
  let b := mixRow salt (key 1) outl (p.b.getD n [])
  let sa := mixRow salt (key 2) [] (p.sa.getD m [])
  let sb := mixRow salt (key 3) [] (p.sb.getD n [])
  let c := oneOf (.zero, false) (vs.map (fun x => cStored x o m n)) (Config.freeBits salt (key 4)).toNat
  let r := accOf o c.1 a.1 b.1 sa.1 sb.1
  ⟨r.1, r.2, a.2 || b.2 || sa.2 || sb.2 || c.2 || (match ent with | some e => e.bad | none => false), free⟩

/-- A store of the arrays: what the vector engine and the earlier operations of the tile are reading may be met (R69, R76). -/
def Tile.mxStore (x : Tile) (uid off : Nat) (data : List PB) : Tile :=
  (x.noteWrite (fun o => decide (o.uid < uid)) true off data.length).spadPut off data

/-- The elements of a C tile in a format: bits, saturated, poisoned. What comes from an array with a cell fault (R58), or of an operation
whose lists or tags have been written meanwhile (R76), has a free value and may or may not have saturated. -/
def tileElems (f first mode salt i0 : Nat) (draw : Nat → BitVec 16) (l : List (Option Entry16 × CElem)) : List (Nat × Bool × Bool) :=
  l.mapIdx (fun i e =>
    let q := resultElem f first (roundWith mode (draw i)) (candAt salt (i0 + i)) e.1 e.2.acc
    if e.2.free then
      ((Config.freeBits salt (i0 + i)).toNat % 2 ^ fmtBits f, (Config.freeBits salt (2 ^ 32 + i0 + i)).getLsbD 0, e.2.bad)
    else (q.1, q.2 || e.2.sat, e.2.bad))

/-- The rows of a C tile in place: base, bytes from row to row, rows, bytes of a row. -/
structure Written where
  base  : Nat
  step  : Nat
  rows  : Nat
  width : Nat

/-- Whether a C tile of an operation has taken a byte. -/
def Written.has (w : Written) (a : Nat) : Bool :=
  decide (w.base ≤ a) && decide ((a - w.base) / w.step < w.rows) && decide ((a - w.base) % w.step < w.width)

/-- Bytes over those of other C tiles of the same operation: each holds a value written for one of the tiles (R183). -/
def blendBytes (salt : Nat) (ws : List Written) (x : Tile) (off : Nat) (data : List PB) : List PB :=
  if ws.isEmpty then data
  else data.mapIdx (fun i b =>
    if ws.any (·.has (off + i)) && (Config.freeBits salt (2 ^ 33 + 2 ^ 24 * ws.length + off + i)).getLsbD 0 then
      (Mem.byte x.scratch (off + i), KeySet.has x.spoison ((off + i) / 8))
    else b)

/-- The rows of a C tile written (R72): the elements inside M × N only. -/
def putRows (uid salt : Nat) (ws : List Written) (base f cols : Nat) (l : List (Nat × Bool × Bool)) (x : Tile) : Tile :=
  let z := fmtBits f / 8
  let rows := piecesOf cols l l.length
  (rows.mapIdx (fun v r => (v, r))).foldl (fun x e =>
    let off := base + e.1 * 128 * z
    x.mxStore uid off (blendBytes salt ws x off (e.2.flatMap (fun q => (toBytes q.1 z).map (fun b => (b, q.2.2)))))) x

/-- A tile's tag written after its last element (R82, R85). -/
def putTag (o : MxOp) (n w : Nat) (x : Tile) : Tile :=
  if o.c.tagv then x.mxStore o.uid (o.c.tags + 2 * n) (clean (toBytes w 2)) else x

/-- One C tile converted and written at a base (R97, R102): draws taken, re-run, tag; with the format it was written in. A tile of a region
without a tag array is re-run too (LOG 142). -/
def writeTile (t : Nat) (k : Kernel) (o : MxOp) (salt n base : Nat) (ws : List Written) (l : List (Option Entry16 × CElem))
    (first cols : Nat) (s : State) : Nat × State :=
  let c := k.ctx.val
  let mode := rndOf k o.rnd
  let i0 := 16384 * n
  let d := drawsTaken s t c
  let narrow := tileElems first first mode salt i0 (fun q => grainDraw s t c (d + q)) l
  let sat := satCountOf narrow
  let s := if mode = 2 then takeDraws t c l.length s else s
  match rerunFmt k first sat o.c.wslot with
  | some w =>
    let d := drawsTaken s t c
    let wide := tileElems w first mode salt i0 (fun q => grainDraw s t c (d + q)) l
    let s := if mode = 2 then takeDraws t c l.length s else s
    (w, noteRerun k.kid (s.modTile t (fun x => putTag o n (tagWord w true sat) (putRows o.uid salt ws base w cols wide x))))
  | none =>
    let s := s.modTile t (fun x => putTag o n (tagWord first false sat) (putRows o.uid salt ws base first cols narrow x))
    (first, if k.legacy then satLegacy t k sat s else s)

/-! ### Completion (R66, R76-R78) -/

/-- Whether a write met a list or tag array of the regions: everything may then be affected. -/
def listsHit (o : MxOp) : Bool := o.listRanges.any (fun e => hitBy (o.hits.map (fun h => (h.1, h.2.length))) e.1 e.2)

/-- The view that an operation has of its tile: its lists and tag arrays as at its issue where a write has met them meanwhile (R76, R85). -/
def viewOf (x : Tile) (o : MxOp) : Tile := if listsHit o then o.held.foldl (fun x e => x.spadPut e.1 e.2) x else x

/-- The views of its tile that an operation may read, oldest first: as at its issue, and after each write since (R76). -/
def viewsOf (x : Tile) (o : MxOp) : List Tile :=
  if listsHit o then [viewOf x o]
  else
    let back := o.hits.foldl (fun (e : Tile × List Tile) h => let y := e.1.spadPut h.1 h.2; (y, y :: e.2)) (x, [x])
    back.2

/-- The elements of C tile (i, j) of an operation, all of them free where the array is broken. -/
def tileOf (x : Tile) (o : MxOp) (broken : Bool) (p : Operands) (salt i j : Nat) : List (Option Entry16 × CElem) :=
  let vs := viewsOf x o
  let v := viewOf x o
  let outl := outliers v o
  (List.range (min 128 (o.m - 128 * i))).flatMap (fun m => (List.range (min 128 (o.n - 128 * j))).map (fun h =>
    let n := 128 * j + h
    let ent := o.tbl.map (fun q => entryAt v q n)
    (ent, cElem vs o p outl salt (listsHit o || broken) ent (128 * i + m) n)))

/-- Issue slots that an operation takes (R71). -/
def slotsOf (o : MxOp) : Nat :=
  let k32 := ceilDiv o.k 32 * 32
  let side := ceilDiv o.nout 32
  let blocks := ceilDiv k32 128 + (if o.nout = 0 then 0 else 1)
  match o.df with
  | 0 => passesOf o.arith * o.nt * blocks * o.m
  | 2 => passesOf o.arith * o.mt * blocks * o.n
  | _ => passesOf o.arith * o.mt * o.nt * (k32 + 32 * side)

/-- The C tiles of an operation in the order of its fold (R64): WS takes column blocks outermost, IS and OS row blocks. -/
def cTiles (o : MxOp) : List (Nat × Nat) :=
  if o.df = 0 then (List.range o.nt).flatMap (fun j => (List.range o.mt).map (fun i => (i, j)))
  else (List.range o.mt).flatMap (fun i => (List.range o.nt).map (fun j => (i, j)))

/-- Where a C tile of an operation lies in a format. -/
def tilePlace (x : Tile) (o : MxOp) (e : Nat × Nat) (f : Nat) : Written :=
  let z := fmtBits f / 8
  ⟨(tileBase x o.c (e.1 * o.nt + e.2)).1, 128 * z, min 128 (o.m - 128 * e.1), min 128 (o.n - 128 * e.2) * z⟩

/-- Some results of an operation written, C tile by C tile, and the formats they were written in; where a list gives the tiles' bases they
may overlap (R183). -/
def mxWrite (t : Nat) (k : Kernel) (o : MxOp) (broken : Bool) (tiles : List (Nat × Nat)) (s : State) : List Nat × State :=
  let x := viewOf (s.tile t) o
  let p := operandsOf (viewsOf (s.tile t) o) o
  let salt := s.free
  let ws := if o.c.list then ((cTiles o).zip o.fmts).map (fun e => tilePlace x o e.1 e.2) else []
  let r := tiles.foldl (fun (acc : (Bool × List Written × List Nat) × State) e =>
    let l := tileOf (s.tile t) o broken p salt e.1 e.2
    let n := e.1 * o.nt + e.2
    let w := writeTile t k o salt n (tileBase x o.c n).1 acc.1.2.1 l (cFmt x o e.2) (min 128 (o.n - 128 * e.2)) acc.2
    ((acc.1.1 || l.any (fun q => q.2.bad), if o.c.list then tilePlace x o e w.1 :: acc.1.2.1 else [], acc.1.2.2 ++ [w.1]), w.2))
    ((false, ws, []), s.took)
  (r.1.2.2, if r.1.1 then notePoison k.kid r.2 else r.2)

/-- C tiles that an operation has still to write. -/
def cLeft (o : MxOp) : List (Nat × Nat) := (cTiles o).drop o.fmts.length

/-- Of those, the ones that it writes before an abort by what it reads: some first ones, none of which it stops at (R88, R183). -/
def mxWritten (x : Tile) (o : MxOp) (salt : Nat) : List (Nat × Nat) :=
  if mxOverlaps x o then []
  else
    let good := (cLeft o).takeWhile (fun e => (firstBad (mxBlockChecks x o [e.1] [e.2])).isNone)
    good.take ((Config.freeBits salt (2 ^ 34)).toNat % (good.length + 1))

/-- The checks that stop an operation when it reads what its descriptor points to; a write that has met its lists or tags raises no fault
(R76). -/
def mxStops (x : Tile) (o : MxOp) : Option Bad := if listsHit o then none else firstBad (mxRunChecks x o)

/-- The C tiles that an operation writes to its end: all that are left, but for those that a write to a list has left without a place. -/
def mxLast (x : Tile) (o : MxOp) : List (Nat × Nat) :=
  if listsHit o then
    (cLeft o).filter (fun e => (firstBad (mxBlockChecks (viewOf x o) o [e.1] [e.2])).isNone && !mxOverlaps (viewOf x o) o)
  else cLeft o

/-- The oldest executing operation of an array has written some more of its results (R76). -/
def mxProgress (t a : Nat) (s : State) : State :=
  let u := (s.tile t).array a
  match u.exec, s.runKernel t with
  | o :: rest, some k =>
    let n := (Config.freeBits s.free 0).toNat % ((cLeft o).length + 1)
    if listsHit o || (mxStops (s.tile t) o).isSome || n = 0 then s.took
    else
      let w := mxWrite t k o (s.broken t a) ((cLeft o).take n) s.took
      w.2.modTile t (fun x => x.putArray a { x.array a with exec := { o with fmts := o.fmts ++ w.1 } :: rest })
  | _, _ => s

/-- The arrays of every tile write some more of their results. -/
def arraysProgress (s : State) : State :=
  forEach (s.tiles.map (·.1)) (fun t s => mxProgress t 1 (mxProgress t 0 s)) s

/-- An operation of an array completes: what its descriptor points to is checked, its results are written, it signals (R66, R136). -/
def mxFinish (t : Nat) (k : Kernel) (o : MxOp) (broken : Bool) (s : State) : State :=
  let x := s.tile t
  match mxStops x o with
  | some b => abortOnTile t b.1 b.2 0 0 (mxWrite t k o broken (mxWritten x o s.free) s).2
  | none =>
    let d := 1 + dieOfTile t
    let n := slotsOf o
    let gated := (Config.freeBits s.free (2 ^ 35)).toNat % (n + 1)
    let s := pmcAdd d 2 gated (pmcAdd d 1 n (mxWrite t k o broken (mxLast x o) s).2)
    match o.sig with
    | some r => kernelSignal t 0 k r s
    | none => s

/-- The oldest executing operation of an array completes (R67). -/
def mxComplete (t a : Nat) (s : State) : State :=
  let u := (s.tile t).array a
  match u.exec, s.runKernel t with
  | o :: rest, some k =>
    mxFinish t k o (s.broken t a) (s.modTile t (fun x => x.putArray a { u with exec := rest }))
  | _, _ => s

/-- MX_OP_COMPLETE (R66). -/
def execMxOpComplete (t : TileId) (a : Fin 2) (fl : List Flaw) (s : State) : Host.Outcome State Fault Refusal :=
  .next (whenLive (fun s => orWait (mxComplete t.val a.val) (meetFlaws t.val fl s)) s)

end Sys2Proof.Machine
end

