-- ==== Sys2Proof/Machine/Vector.lean ====
section
/-! DEFINITION. The vector engine, the reduction unit and the optimiser updates (R105-R126). -/

namespace Sys2Proof.Machine

/-! ### Sources -/

/-- The values of a source, one for each element (R106); an immediate of a block format has no scale in the manual: a free one. -/
def srcValues (s : State) (x : Tile) (count : Nat) (v : VxSrc) : List (XR × Bool) :=
  match v with
  | .none => List.replicate count (.zero, false)
  | .stream b f => valuesAt x b f count
  | .periodic b f p =>
    let a := (valuesAt x b f (min count p)).toArray
    (List.range count).map (fun i => a.getD (i % p) (.zero, false))
  | .imm w f =>
    let e := w.toNat % 2 ^ fmtBits f
    let y := if isMx f then scaledElem f e ((Config.freeBits s.free (2 ^ 30 + w.toNat)).toNat % 256) else decodeElem f e
    List.replicate count (y, false)

/-- Three streams of equal length side by side, with the poison of the element (R125). -/
def zip3 (a b c : List (XR × Bool)) : List (XR × XR × XR × Bool) :=
  ((a.zip b).zip c).map (fun e => (e.1.1.1, e.1.2.1, e.2.1, e.1.1.2 || e.1.2.2 || e.2.2))

/-! ### Element operations (R113, R114, R116) -/

/-- A value of an integer compute format; of uint8 it is not negative, so that SHR shifts zeros in (LOG 141). -/
def cfValue (cf v : Nat) : Int := if cf = 0x05 then (v % 256 : Nat) else signed (fmtBits cf) v

/-- A bitwise result: its bits, and the value that the reduction unit sees. -/
def bitRes (cf v : Nat) : Res := .bits (.int (cfValue cf v)) (v % 2 ^ fmtBits cf)

/-- The bits of an integer value in the compute format. -/
def cfBits (cf : Nat) (x : XR) : Nat := unsign (fmtBits cf) (roundToInt .near x)

/-- 1 or 0. -/
def boolRes (b : Bool) : Res := .val (.int (if b then 1 else 0))

/-- The basic operations (R113). -/
def basicRes (op cf : Nat) (a b c : XR) : Res :=
  let n := fmtBits cf
  match op with
  | 0x00 => .val (a.add b)
  | 0x01 => .val (a.sub b)
  | 0x02 => .val (a.mul b)
  | 0x03 => .val ((a.mul b).add c)
  | 0x04 => .val (if a.isNan || b.isNan then .nan else if b.lt a then b else a)
  | 0x05 => .val (if a.isNan || b.isNan then .nan else if a.lt b then b else a)
  | 0x06 => .val a.abs
  | 0x07 => .val a.neg
  | 0x08 => boolRes (a.eqv b)
  | 0x09 => boolRes (!a.eqv b)
  | 0x0A => boolRes (a.lt b)
  | 0x0B => boolRes (a.le b)
  | 0x0C => .val (if c.isZero then b else a)
  | 0x0D => bitRes cf (cfBits cf a &&& cfBits cf b)
  | 0x0E => bitRes cf (cfBits cf a ||| cfBits cf b)
  | 0x0F => bitRes cf (cfBits cf a ^^^ cfBits cf b)
  | 0x10 => bitRes cf (cfBits cf a * 2 ^ (cfBits cf b % n) % 2 ^ n)
  | _ => bitRes cf (unsign n (cfValue cf (cfBits cf a) / ((2 ^ (cfBits cf b % n) : Nat) : Int)))

/-- The functions of R116 by OP. -/
def fnOf : Nat → Option Fn
  | 0x20 => some .exp | 0x21 => some .exp2 | 0x22 => some .log | 0x23 => some .log2 | 0x24 => some .tanh | 0x25 => some .sigmoid
  | 0x2A => some .rcp | 0x2B => some .rsqrt | 0x30 => some .sin | 0x31 => some .cos | 0x32 => some .erf | 0x33 => some .gelu
  | _ => none

/-- A result of R116: DIV and SQRT have no error before the final rounding. -/
def slowRes (op : Nat) (a b : XR) : Res :=
  match fnOf op with
  | some g => .fn g a
  | none => .val (if op = 0x28 then a.div b else a.sqrt)

/-- An element's result by OP (R113, R114, R116). -/
def vxRes (op cf : Nat) (a b c : XR) : Res :=
  if op = 0x12 then .val a
  else if op = 0x13 then .val ((a.mul b).add c)
  else if vxSlow op then slowRes op a b
  else basicRes op cf a b c

/-! ### The reduction unit (R117-R120) -/

/-- An element as the reduction unit receives it (R117). -/
def ruElem (wide : Bool) (x : XR) : XR := toF (if wide then f64 else f32) x

/-- The format of records. -/
def recFmt (wide : Bool) : Nat := if wide then 0x0F else 0x0E

/-- A sum in a record, within the bound of R119. -/
def sumRecord (wide : Bool) (cand : BitVec 128) (l : List XR) : Nat :=
  let total := l.foldl XR.add .zero
  let mag := l.foldl (fun (m : XR) x => m.add x.abs) .zero
  (withinBound (recFmt wide) .near cand total (mag.mul (.dy 1 (if wide then -96 else -44)))).1

/-- The largest value; NaN where one is NaN (R119). -/
def maxOf (l : List XR) : XR :=
  match l with
  | [] => .inf true
  | x :: xs => xs.foldl (fun m y => if m.isNan || y.isNan then .nan else if m.lt y then y else m) x

/-- The index of ARGMAX (R119). -/
def argMax (l : List XR) : Nat :=
  match l.findIdx? (·.isNan) with
  | some n => n
  | none =>
    let m := maxOf l
    match l.findIdx? (fun x => x.eqv m) with
    | some n => n
    | none => 0

/-- exp of R120. -/
def expOf (x : XR) : XR :=
  match Fn.special .exp x with
  | some y => y
  | none => Fn.value .exp x

/-- m and s of a SOFTMAX record (R120), s within its bound. -/
def softmaxOf (wide : Bool) (cand : BitVec 128) (mIn sIn : XR) (l : List XR) : Nat × Nat :=
  let f := recFmt wide
  let m := maxOf (mIn :: l)
  let enc (x : XR) : Nat := (encodeElem f .near x).1
  if m.isNan then (enc .nan, enc .nan)
  else if m == .inf true then (enc m, enc sIn)
  else
    let sum := l.foldl (fun (a : XR) x => a.add (expOf (x.sub m))) (sIn.mul (expOf (mIn.sub m)))
    let near := enc (nearTo cand sum (sum.abs.mul (.dy 1 (-20))))
    let z := decodeElem f near
    (enc m, if z.isInf || !(z.sub sum).abs.le (sum.abs.mul (.dy 1 (-20))) then enc sum else near)

/-- The state record of a segment (R120) and whether it is poisoned. -/
def stateRecord (x : Tile) (o : VxOp) (j : Nat) : XR × XR × Bool :=
  match valuesAt x (o.ruIn + j * recordBytes 7 o.wide) (recFmt o.wide) 2 with
  | [m, s] => (m.1, s.1, m.2 || s.2)
  | _ => (.nan, .nan, true)

/-- Whether a state record of an operation is poisoned, which poisons every output (R125). -/
def stateRecordsBad (x : Tile) (o : VxOp) : Bool := o.red == 7 && (List.range o.segments).any (fun j => (stateRecord x o j).2.2)

/-- The bytes of the record of a segment (R118-R120). -/
def recordOf (x : Tile) (o : VxOp) (salt j : Nat) (l : List XR) : List Byte :=
  let f := recFmt o.wide
  let n := fmtBits f / 8
  let cand := candAt salt (16384 + j)
  let one (v : XR) : List Byte := toBytes (encodeElem f .near v).1 n
  match o.red with
  | 1 => toBytes (sumRecord o.wide cand l) n
  | 2 => toBytes (sumRecord o.wide cand (l.map (fun v => v.mul v))) n
  | 3 => one (maxOf l)
  | 4 => one (maxOf (l.map XR.neg)).neg
  | 5 => one (maxOf (l.map XR.abs))
  | 6 =>
    let i := argMax l
    let tail : List Byte := if o.wide then toBytes (Config.freeBits salt j).toNat 4 else []
    one (l.getD i .zero) ++ toBytes i 4 ++ tail
  | 7 =>
    let st := stateRecord x o j
    let r := softmaxOf o.wide cand st.1 st.2.1 l
    toBytes r.1 n ++ toBytes r.2 n
  | _ => toBytes (l.filter (fun v => v.isNan || v.isInf)).length 4

/-- The records of an operation: offset, bytes, poisoned (R118, R125). -/
def recordsOf (x : Tile) (o : VxOp) (salt : Nat) (l : List (XR × Bool)) : List (Nat × List Byte × Bool) :=
  if o.red = 0 then []
  else
    (piecesOf o.segLen l o.segments).mapIdx (fun j seg =>
      (o.ruOut + j * recordBytes o.red o.wide, recordOf x o salt j (seg.map (fun e => ruElem o.wide e.1)),
       seg.any (·.2) || (o.red == 7 && (stateRecord x o j).2.2)))

/-! ### Hazards (R76, R112) -/

/-- Bytes of element i of a stream. -/
def elemRange (base f i : Nat) : Nat × Nat :=
  let lo := i * fmtBits f / 8
  (base + lo, ceilDiv ((i + 1) * fmtBits f) 8 - lo)

/-- The ranges that element i of a stream takes: its bytes, and in a block format its scale (R84). -/
def elemRanges (base f i : Nat) : List (Nat × Nat) :=
  elemRange base f i :: (if isMx f then [(base + tileData f + i / 32, 1)] else [])

/-- The format in which a destination was written: its tag's, where it was re-run. -/
def writtenFmt (o : VxOp) (y : Nat × Nat × Option Nat × Bool) : Nat :=
  match y.2.2.1 with
  | some p => (match o.tags.find? (fun e => e.1 == p) with | some e => e.2 % 32 | none => y.2.1)
  | none => y.2.1

/-- Base and format of a source that an update writes in place. -/
def inPlace (x : VxSrc) (count : Nat) : Nat × Nat :=
  match x.stretch count with
  | some (b, f, _) => (b, f)
  | none => (0, 0x0E)

/-- The streams that an operation writes, as base and format. -/
def VxOp.written (o : VxOp) : List (Nat × Nat) :=
  o.outputs.map (fun y => (y.1, writtenFmt o y)) ++
  (if vxUpdate o.op then
    [(o.updW, 0x0E), inPlace o.src1 o.count] ++ (if o.op = 0x40 then [inPlace o.src2 o.count] else [])
   else [])

/-- Whether a write noted meanwhile meets element i of an operation: what it reads for it, or where it is written (R76, R112). -/
def elemHit (o : VxOp) (i : Nat) : Bool :=
  let met (l : List (Nat × Nat)) : Bool := l.any (fun r => hitBy o.hits r.1 r.2)
  let src (x : VxSrc) : Bool :=
    match x with
    | .stream b f => met (elemRanges b f i)
    | .periodic b f p => met (elemRanges b f (i % p))
    | _ => false
  src o.src0 || src o.src1 || src o.src2 || (vxUpdate o.op && hitBy o.hits o.param 64) ||
    o.written.any (fun y => met (elemRanges y.1 y.2 i))

/-- Whether a write meets element i of a stream in some format, where the elements of a block share their scale (R114). -/
def shareHit (o : VxOp) (f i : Nat) : Bool :=
  !o.hits.isEmpty && (if isMx f then (List.range 32).any (fun k => elemHit o (i / 32 * 32 + k)) else elemHit o i)

/-! ### Writing destinations -/

/-- Elements written by the engine from a base: their bytes, then the scales of a block format (R84, R115). -/
def putElems (base f : Nat) (l : List (Nat × Bool × Bool)) (scales : List (Nat × Bool)) (x : Tile) : Tile :=
  let b := fmtBits f
  let put (off : Nat) (data : List PB) (x : Tile) : Tile := (x.noteWrite (fun _ => true) false off data.length).spadPut off data
  let x := put base (packElems b (l.map (fun e => (e.1, e.2.2))) (ceilDiv l.length (packGroup b).2)) x
  if scales.isEmpty then x else put (base + tileData f) (scales.map (fun e => (BitVec.ofNat 8 e.1, e.2))) x

/-- The head operation of the vector engine changed. -/
def modVx (t : Nat) (f : VxOp → VxOp) (s : State) : State := s.modTile t (fun x => { x with vx := x.vx.modify 0 f })

/-- Results converted and written to a destination, with tag, re-run or legacy counting (R97, R100-R102, R115). The conversion
takes its draws from the tile's generator (R53). Whether an element that a write has met counts as saturated is free (R76). -/
def vxWrite (t : Nat) (k : Kernel) (o : VxOp) (mode salt : Nat) (x : Nat × Nat × Option Nat × Bool) (l : List (Res × Bool)) (s : State) : State :=
  let c := k.ctx.val
  let d := drawsTaken s t c
  let f := x.2.1
  let a := encodeAll o.wide f mode salt (fun i => grainDraw s t c (d + i)) l
  let n := satCountOf (a.1.mapIdx (fun i q => if shareHit o f i then (q.1, (Config.freeBits salt (2 ^ 31 + i)).getLsbD 0, q.2.2) else q))
  let s1 := if mode = 2 then takeDraws t c l.length s else s
  match (if x.2.2.1.isSome then rerunFmt k f n x.2.2.2 else none) with
  | some w =>
    let d := drawsTaken s1 t c
    let b := encodeAll o.wide w mode salt (fun i => grainDraw s1 t c (d + i)) l
    let s2 := if mode = 2 then takeDraws t c l.length s1 else s1
    let s3 := noteRerun k.kid (s2.modTile t (putElems x.1 w b.1 b.2))
    match x.2.2.1 with
    | some p => modVx t (fun o => { o with tags := o.tags ++ [(p, tagWord w true n)] }) s3
    | none => s3
  | none =>
    let s2 := s1.modTile t (putElems x.1 f a.1 a.2)
    let s3 := if k.legacy then satLegacy t k n s2 else s2
    match x.2.2.1 with
    | some p => modVx t (fun o => { o with tags := o.tags ++ [(p, tagWord f false n)] }) s3
    | none => s3

/-- The end of an operation's run: its records await its completion, and poison marks the kernel (R118, R125). -/
def vxRan (t : Nat) (k : Kernel) (recs : List (Nat × List Byte × Bool)) (bad : Bool) (s : State) : State :=
  let s := modVx t (fun o => { o with
    ran := true
    recs := recs.map (fun r => (r.1, r.2.1))
    recPoison := (recs.filter (fun r => r.2.2)).map (·.1) }) s
  if bad || recs.any (fun r => r.2.2) then notePoison k.kid s else s

/-- An operation other than an update runs (R107, R108, R113-R120, R125). -/
def vxRun (t : Nat) (k : Kernel) (o : VxOp) (s : State) : State :=
  let x := s.tile t
  let salt := s.free
  let n := vxSources o.op
  let a := srcValues s x o.count o.src0
  let b := srcValues s x o.count (if 1 < n then o.src1 else .none)
  let c := srcValues s x o.count (if 2 < n then o.src2 else .none)
  let stateBad := stateRecordsBad x o
  let l := (zip3 a b c).map (fun e => (vxRes o.op o.cf e.1 e.2.1 e.2.2.1, e.2.2.2 || stateBad))
  let ru := l.mapIdx (fun i e => (e.1.value o.wide (candAt salt i), e.2))
  let recs := recordsOf x o salt ru
  let s := forEach o.outputs (fun y s => vxWrite t k o (rndOf k o.rnd) salt y l s) s.took
  vxRan t k recs (l.any (·.2)) s

/-! ### Updates (R121-R124) -/

/-- A value rounded to fp32 to nearest: every step of R122. -/
def r32 (x : XR) : XR := toF f32 x

/-- The scalars of a parameter block (R121). -/
structure Params where
  lr : XR
  b1 : XR
  b2 : XR
  eps : XR
  wd : XR
  c1 : XR
  c2 : XR
  gs : XR
  s8 : XR
  gate : Nat

/-- The parameter block read from 64 bytes. -/
def paramsOf (b : List Byte) : Params :=
  let v (off : Nat) : XR := decodeFloat f32 (leAt b off 4)
  ⟨v 0, v 4, v 8, v 12, v 16, v 20, v 24, v 28, v 32, leAt b 36 4⟩

/-- What an update makes of one element: m, v, and the exact w (R122). -/
structure Updated where
  m : XR
  v : XR
  w : XR

/-- UPDATE.ADAMW on one element (R122). -/
def adamw (p : Params) (w g0 m0 v0 : XR) : Updated :=
  let g := r32 (g0.mul p.gs)
  let m := r32 ((r32 (p.b1.mul m0)).add (r32 ((r32 (XR.one.sub p.b1)).mul g)))
  let v := r32 ((r32 (p.b2.mul v0)).add (r32 ((r32 ((r32 (XR.one.sub p.b2)).mul g)).mul g)))
  let den := r32 ((r32 (r32 (v.mul p.c2)).sqrt).add p.eps)
  let u := r32 ((r32 ((r32 (m.mul p.c1)).div den)).add (r32 (p.wd.mul w)))
  ⟨m, v, w.sub (r32 (p.lr.mul u))⟩

/-- UPDATE.SGDM on one element (R122). -/
def sgdm (p : Params) (nesterov : Bool) (w g0 m0 : XR) : Updated :=
  let g := r32 (g0.mul p.gs)
  let m := r32 ((r32 (p.b1.mul m0)).add g)
  let d := if nesterov then r32 (g.add (r32 (p.b1.mul m))) else m
  ⟨m, .zero, w.sub (r32 (p.lr.mul (r32 (d.add (r32 (p.wd.mul w))))))⟩

/-- Elements converted with one mode and written in place, with their draws: the master and the moments. -/
def putStream (t : Nat) (k : Kernel) (mode : Nat) (y : Nat × Nat) (l : List (XR × Bool)) (s : State) : State :=
  let c := k.ctx.val
  let d := drawsTaken s t c
  let e := l.mapIdx (fun i v =>
    let q := encodeElem y.2 (roundWith mode (grainDraw s t c (d + i))) v.1
    (q.1, q.2, v.2))
  let s := if mode = 2 then takeDraws t c l.length s else s
  s.modTile t (putElems y.1 y.2 e [])

/-- The elements of an update computed (R122), each with the poison of its operands. -/
def updateElems (o : VxOp) (p : Params) (bad : Bool) (s : State) (x : Tile) : List (Updated × Bool) :=
  let w := valuesAt x o.updW 0x0E o.count
  let l := zip3 (srcValues s x o.count o.src0) (srcValues s x o.count o.src1) (srcValues s x o.count o.src2)
  (w.zip l).map (fun e =>
    (if o.op = 0x40 then adamw p e.1.1 e.2.1 e.2.2.1 e.2.2.2.1 else sgdm p o.nesterov e.1.1 e.2.1 e.2.2.1,
     e.1.2 || e.2.2.2.2 || bad))

/-- An update runs (R121-R125): nothing is written where GATE is not 0. Where W16 and W8 overlap, W8 stays (LOG 170); in legacy mode each of
the two counts as a tile (LOG 171). -/
def updateRun (t : Nat) (k : Kernel) (o : VxOp) (s : State) : State :=
  let x := s.tile t
  let pb := spadBytes x o.param 64
  let p := paramsOf (plain pb)
  let salt := s.free
  if p.gate ≠ 0 ∧ !anyPoison pb then vxRan t k [] false (modVx t (fun o => { o with count := 0 }) s)
  else
    let l := updateElems o p (anyPoison pb || stateRecordsBad x o) s x
    let recs := recordsOf x o salt (l.map (fun e => (e.1.w, e.2)))
    let w := l.map (fun e => (e.1.w, e.2))
    let s := putStream t k (rndOf k o.rnd) (o.updW, 0x0E) w s.took
    let s := putStream t k 0 (inPlace o.src1 o.count) (l.map (fun e => (e.1.m, e.2))) s
    let s := if o.op = 0x40 then putStream t k 0 (inPlace o.src2 o.count) (l.map (fun e => (e.1.v, e.2))) s else s
    let s := vxWrite t k o (rndOf k o.rnd16) salt (o.dstBase, o.dstFmt, none, false) (w.map (fun e => (Res.val e.1, e.2))) s
    let s :=
      if o.w8Present then
        vxWrite t k o (rndOf k o.rnd8) salt (o.updW8, o.w8Fmt, o.w8Tag, o.w8Wslot) (w.map (fun e => (Res.val (e.1.mul p.s8), e.2))) s
      else s
    vxRan t k recs (l.any (·.2)) s

/-! ### Rows -/

/-- The operation at the head of a tile's vector engine, of a kind, runs where it has not yet (R112). -/
def vxStep (t : Nat) (p : Nat → Bool) (run : Nat → Kernel → VxOp → State → State) (s : State) : State :=
  match (s.tile t).vx, s.runKernel t with
  | o :: _, some k => if p o.op && !o.ran then run t k o s else s
  | _, _ => s

/-- VX_BASIC_OP (R113). -/
def execVxBasicOp (t : TileId) (fl : List Flaw) (s : State) :
    Host.Outcome State Fault Refusal := .next (whenLive (fun s => vxStep t.val vxBasic vxRun (meetFlaws t.val fl s)) s)
/-- VX_CVT (R114). -/
def execVxCvt (t : TileId) (fl : List Flaw) (s : State) :
    Host.Outcome State Fault Refusal := .next (whenLive (fun s => vxStep t.val (· == 0x12) vxRun (meetFlaws t.val fl s)) s)
/-- VX_QNT (R114). -/
def execVxQnt (t : TileId) (fl : List Flaw) (s : State) :
    Host.Outcome State Fault Refusal := .next (whenLive (fun s => vxStep t.val (· == 0x13) vxRun (meetFlaws t.val fl s)) s)
/-- VX_TRANSCENDENTAL (R116). -/
def execVxTranscendental (t : TileId) (fl : List Flaw) (s : State) : Host.Outcome State Fault Refusal :=
  .next (whenLive (fun s => vxStep t.val vxSlow vxRun (meetFlaws t.val fl s)) s)
/-- UPDATE_ADAMW (R122). -/
def execUpdateAdamw (t : TileId) (fl : List Flaw) (s : State) : Host.Outcome State Fault Refusal :=
  .next (whenLive (fun s => vxStep t.val (· == 0x40) updateRun (meetFlaws t.val fl s)) s)
/-- UPDATE_SGDM (R122). -/
def execUpdateSgdm (t : TileId) (fl : List Flaw) (s : State) : Host.Outcome State Fault Refusal :=
  .next (whenLive (fun s => vxStep t.val (· == 0x41) updateRun (meetFlaws t.val fl s)) s)

/-! ### Completion -/

/-- Elements that a write has met take free values, in a block format with their scale (R76). -/
def vxScramble (salt : Nat) (o : VxOp) (x : Tile) : Tile :=
  if o.hits.isEmpty then x
  else
    o.written.foldl (fun x y =>
      ((List.range o.count).filter (shareHit o y.2)).foldl (fun x i =>
        (elemRanges y.1 y.2 i).foldl (fun x r => scramble salt r.1 r.2 x) x) x) x

/-- Whether a record takes free values (R76). -/
def recHit (o : VxOp) (j : Nat) : Bool :=
  ((List.range o.segLen).any (fun i => decide (j * o.segLen + i < o.count) && elemHit o (j * o.segLen + i))) ||
    (o.red == 7 && hitBy o.hits (o.ruIn + j * recordBytes 7 o.wide) (recordBytes 7 o.wide))

/-- The records and tags of an operation written (R81, R118); a tag carries no poison (LOG 172). -/
def vxFinish (salt : Nat) (o : VxOp) (x : Tile) : Tile :=
  let put (off : Nat) (data : List PB) (x : Tile) : Tile := (x.noteWrite (fun _ => true) false off data.length).spadPut off data
  let recs := o.recs.mapIdx (fun j r => (j, r))
  let x := recs.foldl (fun x e =>
    let r := e.2
    let bad := o.recPoison.contains r.1
    let data := if !o.hits.isEmpty && recHit o e.1 then toBytes (Config.freeBits salt r.1).toNat r.2.length else r.2
    put r.1 (data.map (fun b => (b, bad))) x) x
  o.tags.foldl (fun x e => put e.1 (clean (toBytes e.2 2)) x) x

/-- The head operation that has run completes (R136): records and tags, its signal, and room in the queue. -/
def vxComplete (t : Nat) (s : State) : State :=
  match (s.tile t).vx, s.runKernel t with
  | o :: rest, some k =>
    if o.ran then
      let salt := s.free
      let s := (s.modTile t (fun x =>
        let x := { x with vx := rest }
        if o.recs.isEmpty && o.tags.isEmpty && o.hits.isEmpty then x else vxFinish salt o (vxScramble salt o x))).took
      let s := match o.sig with
        | some r => kernelSignal t 0 k r s
        | none => s
      retryStalled t s
    else s
  | _, _ => s

/-- VX_OP_COMPLETE (R136). -/
def execVxOpComplete (t : TileId) (s : State) : Host.Outcome State Fault Refusal := .next (whenServed (vxComplete t.val) s)

end Sys2Proof.Machine
end

