-- ==== Sys2Proof/Machine/Dispatch.lean ====
section
/-! DEFINITION. One arm per command: its meaning, or its rejection by name. -/

namespace Sys2Proof.Machine

/-- The effect of a command on everything but the queue. -/
def exec (i : Instr) (s : State) : Host.Outcome State Fault Refusal :=
  match i with
  | .nop iss => Sys2Proof.Machine.execNop iss s
  | .iadd iss => Sys2Proof.Machine.execIadd iss s
  | .isub iss => Sys2Proof.Machine.execIsub iss s
  | .imul iss => Sys2Proof.Machine.execImul iss s
  | .imulh iss => Sys2Proof.Machine.execImulh iss s
  | .imad iss => Sys2Proof.Machine.execImad iss s
  | .imin iss => Sys2Proof.Machine.execImin iss s
  | .imax iss => Sys2Proof.Machine.execImax iss s
  | .andR iss => Sys2Proof.Machine.execAndR iss s
  | .orR iss => Sys2Proof.Machine.execOrR iss s
  | .xorR iss => Sys2Proof.Machine.execXorR iss s
  | .shl iss => Sys2Proof.Machine.execShl iss s
  | .shr iss => Sys2Proof.Machine.execShr iss s
  | .popc iss => Sys2Proof.Machine.execPopc iss s
  | .clz iss => Sys2Proof.Machine.execClz iss s
  | .brev iss => Sys2Proof.Machine.execBrev iss s
  | .idiv iss => Sys2Proof.Machine.execIdiv iss s
  | .irem iss => Sys2Proof.Machine.execIrem iss s
  | .sel iss => Sys2Proof.Machine.execSel iss s
  | .mov iss => Sys2Proof.Machine.execMov iss s
  | .isetp iss => Sys2Proof.Machine.execIsetp iss s
  | .iaddI iss => Sys2Proof.Machine.execIaddI iss s
  | .isubI iss => Sys2Proof.Machine.execIsubI iss s
  | .imulI iss => Sys2Proof.Machine.execImulI iss s
  | .iminI iss => Sys2Proof.Machine.execIminI iss s
  | .imaxI iss => Sys2Proof.Machine.execImaxI iss s
  | .andI iss => Sys2Proof.Machine.execAndI iss s
  | .orI iss => Sys2Proof.Machine.execOrI iss s
  | .xorI iss => Sys2Proof.Machine.execXorI iss s
  | .shlI iss => Sys2Proof.Machine.execShlI iss s
  | .shrI iss => Sys2Proof.Machine.execShrI iss s
  | .movI iss => Sys2Proof.Machine.execMovI iss s
  | .isetpI iss => Sys2Proof.Machine.execIsetpI iss s
  | .plog iss => Sys2Proof.Machine.execPlog iss s
  | .p2g iss => Sys2Proof.Machine.execP2g iss s
  | .g2p iss => Sys2Proof.Machine.execG2p iss s
  | .sreg iss => Sys2Proof.Machine.execSreg iss s
  | .fadd iss => Sys2Proof.Machine.execFadd iss s
  | .fsub iss => Sys2Proof.Machine.execFsub iss s
  | .fmul iss => Sys2Proof.Machine.execFmul iss s
  | .ffma iss => Sys2Proof.Machine.execFfma iss s
  | .fmin iss => Sys2Proof.Machine.execFmin iss s
  | .fmax iss => Sys2Proof.Machine.execFmax iss s
  | .fabs iss => Sys2Proof.Machine.execFabs iss s
  | .fneg iss => Sys2Proof.Machine.execFneg iss s
  | .fdiv iss => Sys2Proof.Machine.execFdiv iss s
  | .fsqrt iss => Sys2Proof.Machine.execFsqrt iss s
  | .frcp iss => Sys2Proof.Machine.execFrcp iss s
  | .frsqrt iss => Sys2Proof.Machine.execFrsqrt iss s
  | .fexp2 iss => Sys2Proof.Machine.execFexp2 iss s
  | .flog2 iss => Sys2Proof.Machine.execFlog2 iss s
  | .fsin iss => Sys2Proof.Machine.execFsin iss s
  | .fcos iss => Sys2Proof.Machine.execFcos iss s
  | .fsetp iss => Sys2Proof.Machine.execFsetp iss s
  | .cvt iss => Sys2Proof.Machine.execCvt iss s
  | .ld iss => Sys2Proof.Machine.execLd iss s
  | .st iss => Sys2Proof.Machine.execSt iss s
  | .atomAdd iss => Sys2Proof.Machine.execAtomAdd iss s
  | .atomSwap iss => Sys2Proof.Machine.execAtomSwap iss s
  | .atomCas iss => Sys2Proof.Machine.execAtomCas iss s
  | .atomMin iss => Sys2Proof.Machine.execAtomMin iss s
  | .atomMax iss => Sys2Proof.Machine.execAtomMax iss s
  | .bra iss => Sys2Proof.Machine.execBra iss s
  | .brx iss => Sys2Proof.Machine.execBrx iss s
  | .call iss => Sys2Proof.Machine.execCall iss s
  | .exitT iss => Sys2Proof.Machine.execExitT iss s
  | .trap iss => Sys2Proof.Machine.execTrap iss s
  | .barG iss => Sys2Proof.Machine.execBarG iss s
  | .barT iss => Sys2Proof.Machine.execBarT iss s
  | .sig iss => Sys2Proof.Machine.execSig iss s
  | .sigI iss => Sys2Proof.Machine.execSigI iss s
  | .waits iss => Sys2Proof.Machine.execWaits iss s
  | .fence iss => Sys2Proof.Machine.execFence iss s
  | .mxRun iss => Sys2Proof.Machine.execMxRun iss s
  | .vxRun iss => Sys2Proof.Machine.execVxRun iss s
  | .dxCopy iss => Sys2Proof.Machine.execDxCopy iss s
  | .dxFill iss => Sys2Proof.Machine.execDxFill iss s
  | .dxRed iss => Sys2Proof.Machine.execDxRed iss s
  | .kernelStart t => Sys2Proof.Machine.execKernelStart t s
  | .groupAdmit t => Sys2Proof.Machine.execGroupAdmit t s
  | .l1Fill t n hw => Sys2Proof.Machine.execL1Fill t n hw s
  | .mergeBufferDrain t n fl => Sys2Proof.Machine.execMergeBufferDrain t n fl s
  | .convWatchdogExpiry t g => Sys2Proof.Machine.execConvWatchdogExpiry t g s
  | .kernelAbortRemoteStop t => Sys2Proof.Machine.execKernelAbortRemoteStop t s
  | .kernelEnd t => Sys2Proof.Machine.execKernelEnd t s
  | .waitsTimeout t g l => Sys2Proof.Machine.execWaitsTimeout t g l s
  | .waitRecordRegister t g l => Sys2Proof.Machine.execWaitRecordRegister t g l s
  | .mxOpStart t a => Sys2Proof.Machine.execMxOpStart t a s
  | .mxOpComplete t a fl => Sys2Proof.Machine.execMxOpComplete t a fl s
  | .vxBasicOp t fl => Sys2Proof.Machine.execVxBasicOp t fl s
  | .vxCvt t fl => Sys2Proof.Machine.execVxCvt t fl s
  | .vxQnt t fl => Sys2Proof.Machine.execVxQnt t fl s
  | .vxTranscendental t fl => Sys2Proof.Machine.execVxTranscendental t fl s
  | .updateAdamw t fl => Sys2Proof.Machine.execUpdateAdamw t fl s
  | .updateSgdm t fl => Sys2Proof.Machine.execUpdateSgdm t fl s
  | .vxOpComplete t => Sys2Proof.Machine.execVxOpComplete t s
  | .dxOpStart t => Sys2Proof.Machine.execDxOpStart t s
  | .dxOpComplete t n hw fl => Sys2Proof.Machine.execDxOpComplete t n hw fl s
  | .nearCacheAccess x => Sys2Proof.Machine.execNearCacheAccess x s
  | .wordAtomic r pa op wide cmp b => Sys2Proof.Machine.execWordAtomic r pa op wide cmp b s
  | .bulkReduction r pa op fmt data poison err => Sys2Proof.Machine.execBulkReduction r pa op fmt data poison err s
  | .agitatorRead stk err => Sys2Proof.Machine.execAgitatorRead stk err s
  | .phyRecalibration stk ch => Sys2Proof.Machine.execPhyRecalibration stk ch s
  | .refreshManagement stk pc bank => Sys2Proof.Machine.execRefreshManagement stk pc bank s
  | .pcFailure stk pc => Sys2Proof.Machine.execPcFailure stk pc s
  | .hbmEccClr o stk v => Sys2Proof.Machine.execHbmEccClr o stk v s
  | .tgenStart o stk pc v => Sys2Proof.Machine.execTgenStart o stk pc v s
  | .tgenStop o stk pc v => Sys2Proof.Machine.execTgenStop o stk pc v s
  | .tgenDone stk pc errors first ecc => Sys2Proof.Machine.execTgenDone stk pc errors first ecc s
  | .p1500Go o stk v => Sys2Proof.Machine.execP1500Go o stk v s
  | .p1500Done stk ecc => Sys2Proof.Machine.execP1500Done stk ecc s
  | .applyBand o stk b v => Sys2Proof.Machine.execApplyBand o stk b v s
  | .bandChangeComplete b => Sys2Proof.Machine.execBandChangeComplete b s
  | .pageWalkComplete w => Sys2Proof.Machine.execPageWalkComplete w s
  | .windowCtlWrite o w v => Sys2Proof.Machine.execWindowCtlWrite o w v s
  | .windowDrainEnd w => Sys2Proof.Machine.execWindowDrainEnd w s
  | .engineReadSnoop u => Sys2Proof.Machine.execEngineReadSnoop u s
  | .engineWriteSnoop u => Sys2Proof.Machine.execEngineWriteSnoop u s
  | .coreLoadMiss k pa hw err => Sys2Proof.Machine.execCoreLoadMiss k pa hw err s
  | .coreStoreMiss k pa data hw => Sys2Proof.Machine.execCoreStoreMiss k pa data hw s
  | .coreAmo k pa op wide cmp b => Sys2Proof.Machine.execCoreAmo k pa op wide cmp b s
  | .lrSc k pa sc => Sys2Proof.Machine.execLrSc k pa sc s
  | .l2Eviction k line err => Sys2Proof.Machine.execL2Eviction k line err s
  | .l3Eviction line err => Sys2Proof.Machine.execL3Eviction line err s
  | .cboClean k pa => Sys2Proof.Machine.execCboClean k pa s
  | .cboFlush k pa => Sys2Proof.Machine.execCboFlush k pa s
  | .cboInval k pa => Sys2Proof.Machine.execCboInval k pa s
  | .cboZero k pa => Sys2Proof.Machine.execCboZero k pa s
  | .imsicWrite o k file ident => Sys2Proof.Machine.execImsicWrite o k file ident s
  | .hostBar2Read off len => Sys2Proof.Machine.execHostBar2Read off len s
  | .hostBar2Write off data => Sys2Proof.Machine.execHostBar2Write off data s
  | .snpInv line => Sys2Proof.Machine.execSnpInv line s
  | .snpData line => Sys2Proof.Machine.execSnpData line s
  | .snpCur line => Sys2Proof.Machine.execSnpCur line s
  | .hostLineEviction line err => Sys2Proof.Machine.execHostLineEviction line err s
  | .signalApply n => Sys2Proof.Machine.execSignalApply n s
  | .waitRegister n => Sys2Proof.Machine.execWaitRegister n s
  | .syncCtxSig o c v => Sys2Proof.Machine.execSyncCtxSig o c v s
  | .armSlotWrite o c a v => Sys2Proof.Machine.execArmSlotWrite o c a v s
  | .syncObjValWrite o p v => Sys2Proof.Machine.execSyncObjValWrite o p v s
  | .sqTail o q v => Sys2Proof.Machine.execSqTail o q v s
  | .cqHead o q v => Sys2Proof.Machine.execCqHead o q v s
  | .sqFetch q hw => Sys2Proof.Machine.execSqFetch q hw s
  | .sqFetchRetry q hw => Sys2Proof.Machine.execSqFetchRetry q hw s
  | .commandStart q => Sys2Proof.Machine.execCommandStart q s
  | .cqPost q => Sys2Proof.Machine.execCqPost q s
  | .sqEnable o q v => Sys2Proof.Machine.execSqEnable o q v s
  | .cqEnable o q v => Sys2Proof.Machine.execCqEnable o q v s
  | .queueDrainEnd cq q => Sys2Proof.Machine.execQueueDrainEnd cq q s
  | .contextDrainEnd c => Sys2Proof.Machine.execContextDrainEnd c s
  | .functionDrainEnd f => Sys2Proof.Machine.execFunctionDrainEnd f s
  | .nopCmd q n => Sys2Proof.Machine.execNopCmd q n s
  | .fenceCmd q n => Sys2Proof.Machine.execFenceCmd q n s
  | .signalCmd q n => Sys2Proof.Machine.execSignalCmd q n s
  | .waitCmd q n => Sys2Proof.Machine.execWaitCmd q n s
  | .waitTimeout q n => Sys2Proof.Machine.execWaitTimeout q n s
  | .launch q n hw => Sys2Proof.Machine.execLaunch q n hw s
  | .copyCmd q n => Sys2Proof.Machine.execCopyCmd q n s
  | .writeInline q n => Sys2Proof.Machine.execWriteInline q n s
  | .fillCmd q n => Sys2Proof.Machine.execFillCmd q n s
  | .reduceCopy q n => Sys2Proof.Machine.execReduceCopy q n s
  | .collective q n hw => Sys2Proof.Machine.execCollective q n hw s
  | .checkpointSave q n hw => Sys2Proof.Machine.execCheckpointSave q n hw s
  | .checkpointRestore q n hw => Sys2Proof.Machine.execCheckpointRestore q n hw s
  | .mapRange q n => Sys2Proof.Machine.execMapRange q n s
  | .unmapRange q n => Sys2Proof.Machine.execUnmapRange q n s
  | .tlbInvalidate q n => Sys2Proof.Machine.execTlbInvalidate q n s
  | .query q n => Sys2Proof.Machine.execQuery q n s
  | .featureNegotiate q n => Sys2Proof.Machine.execFeatureNegotiate q n s
  | .powerBudget q n => Sys2Proof.Machine.execPowerBudget q n s
  | .contextCreate q n => Sys2Proof.Machine.execContextCreate q n s
  | .contextDestroy q n => Sys2Proof.Machine.execContextDestroy q n s
  | .contextPreempt q n => Sys2Proof.Machine.execContextPreempt q n s
  | .preemptTimeout q n => Sys2Proof.Machine.execPreemptTimeout q n s
  | .contextResume q n => Sys2Proof.Machine.execContextResume q n s
  | .claim o v => Sys2Proof.Machine.execClaim o v s
  | .detach o v => Sys2Proof.Machine.execDetach o v s
  | .adopt o c v => Sys2Proof.Machine.execAdopt o c v s
  | .drvAcceptWrite o h v => Sys2Proof.Machine.execDrvAcceptWrite o h v s
  | .perst level => Sys2Proof.Machine.execPerst level s
  | .hotReset => Sys2Proof.Machine.execHotReset s
  | .linkDown => Sys2Proof.Machine.execLinkDown s
  | .surpriseRemoval => Sys2Proof.Machine.execSurpriseRemoval s
  | .linkRecovery => Sys2Proof.Machine.execLinkRecovery s
  | .hostUnreachable f cause => Sys2Proof.Machine.execHostUnreachable f cause s
  | .functionLevelReset f => Sys2Proof.Machine.execFunctionLevelReset f s
  | .vfEnableClear => Sys2Proof.Machine.execVfEnableClear s
  | .quadTraining q r => Sys2Proof.Machine.execQuadTraining q r s
  | .quadTrainRetry q r => Sys2Proof.Machine.execQuadTrainRetry q r s
  | .nlReplay q nak lost => Sys2Proof.Machine.execNlReplay q nak lost s
  | .linkControlFrame q hdr => Sys2Proof.Machine.execLinkControlFrame q hdr s
  | .writeFrame f => Sys2Proof.Machine.execWriteFrame f s
  | .readFrame f => Sys2Proof.Machine.execReadFrame f s
  | .signalFrame f => Sys2Proof.Machine.execSignalFrame f s
  | .reduceWrite f => Sys2Proof.Machine.execReduceWrite f s
  | .readResp f => Sys2Proof.Machine.execReadResp f s
  | .ack f => Sys2Proof.Machine.execAck f s
  | .nak f => Sys2Proof.Machine.execNak f s
  | .abortFrame f => Sys2Proof.Machine.execAbortFrame f s
  | .report f => Sys2Proof.Machine.execReport f s
  | .grant f => Sys2Proof.Machine.execGrant f s
  | .ret f => Sys2Proof.Machine.execRet f s
  | .requestTimeout node psn => Sys2Proof.Machine.execRequestTimeout node psn s
  | .xportClr o v => Sys2Proof.Machine.execXportClr o v s
  | .addrtabInv o v => Sys2Proof.Machine.execAddrtabInv o v s
  | .nicTxTail o r v => Sys2Proof.Machine.execNicTxTail o r v s
  | .nicReceive q p => Sys2Proof.Machine.execNicReceive q p s
  | .collectiveWaitSatisfied id hw => Sys2Proof.Machine.execCollectiveWaitSatisfied id hw s
  | .collectiveTimeout id hw => Sys2Proof.Machine.execCollectiveTimeout id hw s
  | .abortMemoryExpiry id => Sys2Proof.Machine.execAbortMemoryExpiry id s
  | .ckptHeldWrite r pa data => Sys2Proof.Machine.execCkptHeldWrite r pa data s
  | .ckptBlockReadComplete b => Sys2Proof.Machine.execCkptBlockReadComplete b s
  | .capControlTick p a => Sys2Proof.Machine.execCapControlTick p a s
  | .lcapWatchdog => Sys2Proof.Machine.execLcapWatchdog s
  | .pwrCapWrite o v => Sys2Proof.Machine.execPwrCapWrite o v s
  | .droopReport t low => Sys2Proof.Machine.execDroopReport t low s
  | .shutterRelease d => Sys2Proof.Machine.execShutterRelease d s
  | .clkArrTarget o v => Sys2Proof.Machine.execClkArrTarget o v s
  | .arrPatternSwitch d => Sys2Proof.Machine.execArrPatternSwitch d s
  | .holdRelease d => Sys2Proof.Machine.execHoldRelease d s
  | .vddArrRampDone d => Sys2Proof.Machine.execVddArrRampDone d s
  | .thermalTick dieTemps stackTemps => Sys2Proof.Machine.execThermalTick dieTemps stackTemps s
  | .thermalStepDown d => Sys2Proof.Machine.execThermalStepDown d s
  | .thermalStepUp d => Sys2Proof.Machine.execThermalStepUp d s
  | .thermalTrip x => Sys2Proof.Machine.execThermalTrip x s
  | .tripClear o x v => Sys2Proof.Machine.execTripClear o x v s
  | .clrpeak o x v => Sys2Proof.Machine.execClrpeak o x v s
  | .clkSrvDiv o k v => Sys2Proof.Machine.execClkSrvDiv o k v s
  | .vddSrvRampDone k => Sys2Proof.Machine.execVddSrvRampDone k s
  | .powerEpoch waitTicks => Sys2Proof.Machine.execPowerEpoch waitTicks s
  | .grantLeaseExpiry idx id => Sys2Proof.Machine.execGrantLeaseExpiry idx id s
  | .donationExpiry id => Sys2Proof.Machine.execDonationExpiry id s
  | .joinHoldEnd => Sys2Proof.Machine.execJoinHoldEnd s
  | .groupLeaveComplete => Sys2Proof.Machine.execGroupLeaveComplete s
  | .supplyValid iss gapMet => Sys2Proof.Machine.execSupplyValid iss gapMet s
  | .supplyLost iss => Sys2Proof.Machine.execSupplyLost iss s
  | .vinMainDip us mv => Sys2Proof.Machine.execVinMainDip us mv s
  | .pllLossOfLock p => Sys2Proof.Machine.execPllLossOfLock p s
  | .refclkLoss => Sys2Proof.Machine.execRefclkLoss s
  | .refclkReturn => Sys2Proof.Machine.execRefclkReturn s
  | .coldReset b => Sys2Proof.Machine.execColdReset b s
  | .warm o v b => Sys2Proof.Machine.execWarm o v b s
  | .dieReset o v b => Sys2Proof.Machine.execDieReset o v b s
  | .tileGo o v => Sys2Proof.Machine.execTileGo o v s
  | .ctxGo o v => Sys2Proof.Machine.execCtxGo o v s
  | .heartbeat answered => Sys2Proof.Machine.execHeartbeat answered s
  | .heartbeatTimeout d => Sys2Proof.Machine.execHeartbeatTimeout d s
  | .exposureDetermined d => Sys2Proof.Machine.execExposureDetermined d s
  | .hubLoss c => Sys2Proof.Machine.execHubLoss c s
  | .d2dModuleFailure d m retried => Sys2Proof.Machine.execD2dModuleFailure d m retried s
  | .d2dLoopbackTest x on => Sys2Proof.Machine.execD2dLoopbackTest x on s
  | .satcntClr o t v => Sys2Proof.Machine.execSatcntClr o t v s
  | .pmcClear o x v => Sys2Proof.Machine.execPmcClear o x v s
  | .pmcFreeze o x v => Sys2Proof.Machine.execPmcFreeze o x v s
  | .serviceWatchdogExpiry z => Sys2Proof.Machine.execServiceWatchdogExpiry z s
  | .nextFlashStore => Sys2Proof.Machine.execNextFlashStore s
  | .telemetryTick m => Sys2Proof.Machine.execTelemetryTick m s
  | .negativeFreeze o v => Sys2Proof.Machine.execNegativeFreeze o v s
  | .getIdentity => Sys2Proof.Machine.execGetIdentity s
  | .getCert => Sys2Proof.Machine.execGetCert s
  | .attest nonce => Sys2Proof.Machine.execAttest nonce s
  | .fwWrite off data => Sys2Proof.Machine.execFwWrite off data s
  | .fwCommit => Sys2Proof.Machine.execFwCommit s
  | .fwSvnCommit => Sys2Proof.Machine.execFwSvnCommit s
  | .lcNonce => Sys2Proof.Machine.execLcNonce s
  | .lcRequest dest nonce token => Sys2Proof.Machine.execLcRequest dest nonce token s
  | .getTelemetry secs first count => Sys2Proof.Machine.execGetTelemetry secs first count s
  | .getLog first count => Sys2Proof.Machine.execGetLog first count s
  | .traceRead x off => Sys2Proof.Machine.execTraceRead x off s
  | .mctpControl msg => Sys2Proof.Machine.execMctpControl msg s
  | .pldmRequest msg => Sys2Proof.Machine.execPldmRequest msg s
  | .prsntN high => Sys2Proof.Machine.execPrsntN high s
  | .modRstN ns starts released => Sys2Proof.Machine.execModRstN ns starts released s
  | .jtagInstruction ir => Sys2Proof.Machine.execJtagInstruction ir s
  | .registerWrite o off bytes v => Sys2Proof.Machine.execRegisterWrite o off bytes v s
  | .hubDmaComplete q n hw => Sys2Proof.Machine.execHubDmaComplete q n hw s
  | .configurationRequest f r => Sys2Proof.Machine.execConfigurationRequest f r s
  | .linkUp cxl => Sys2Proof.Machine.execLinkUp cxl s
  | .dieFabricError d => Sys2Proof.Machine.execDieFabricError d s
  | .pllRelock p => Sys2Proof.Machine.execPllRelock p s

end Sys2Proof.Machine
end

