-- ==== Sys2Proof/Machine/Idle.lean ====
section
/-! DEFINITION. What passes while no command waits (LOG 2). -/

namespace Sys2Proof.Machine

/-- A die's tick: its TEL count advances while the die is not held in reset (R237). -/
def Die.tick (d : Die) : Die := if d.held then d else { d with tel := d.tel + 1 }

/-- Every TEL counter advances by one, 10 ns (R237, R396): the hub's and that of every compute die not held in reset. -/
def telTick (s : State) : State :=
  forEach [0, 1, 2, 3] (fun d s => s.modDie d Die.tick) { s with hub := { s.hub with tel := s.hub.tel + 1 } }

/-- Whether a collective waits for a READY or DATA signal (R332, R333). -/
def Coll.waits (s : State) (c : Coll) : Bool :=
  (match c.wait with | some (.ready _) => true | some (.data _) => true | _ => false) && collWaiting s c.id

/-- Whether both conditions of R365 hold: a collective waits and no tile runs a kernel. -/
def busyWaiting (s : State) : Bool := s.eng.colls.any (fun c => c.waits s) && s.kernels.all (fun k => k.live == 0)

/-- A count of the running epoch (R365). -/
def epochTick (s : State) : State :=
  if s.pwr.epochTicks < epochLen then
    { s with pwr := { s.pwr with
        epochTicks := s.pwr.epochTicks + 1, epochBusy := s.pwr.epochBusy + b2n (busyWaiting s) } }
  else s

/-- What waited for an access goes on where it can (R136, R216, R340). -/
def settleAll (s : State) : State := settleSaves (settleColls (settleKernels (sweepColls (settleRx s))))

/-- The idle step of a running module: the counters tick, the arrays write some of their results (R76), and what waited goes on. -/
def idleTick (s : State) : State := whenLive (fun s => settleAll (arraysProgress (epochTick (telTick s)))) s

end Sys2Proof.Machine
end

