-- ==== Sys2Proof/Safety.lean ====
section
/-! DEFINITION. What counts as a run without a stop, and the terms claims use: when a thread instruction is ready to
issue, and what an instruction that only writes registers leaves behind. -/

namespace Sys2Proof

/-- The next command has a meaning in this state: the step answers a next state. -/
def Safe (s : Machine.State) : Prop := ∃ t, Machine.step s = .next t

/-- No run of `k` steps from a state ends in a fault or a refusal. -/
def SafeFor : Nat → Machine.State → Prop
  | 0, _ => True
  | k + 1, s => ∃ t, Machine.step s = .next t ∧ SafeFor k t

namespace Machine

/-- What an outcome must be: a next state of which `P` holds. -/
def Answers (o : Host.Outcome State Fault Refusal) (P : State → Prop) : Prop := ∃ t, o = .next t ∧ P t

/-- Runnable threads of one resident group at one PC whose registers wait for no load, put forward for issue (R131): their word `w` is in the
instruction cache, has opcode `opc` and passes the checks of R154; they meet no error in the tile's memories, and no guard carries
poison. -/
structure IssueSet (s : State) (i : Issue) (opc : Nat) (r : Run) (k : Kernel) (g : Group) (pc : Nat) (w : W64) : Prop where
  live    : s.live = true
  run     : (s.tile i.tile.val).run = some r
  going   : r.stopped = false
  kernel  : s.kernel? r.kid = some k
  group   : r.groups.find? (fun x => x.num == i.group) = some g
  lanes   : i.lanes ≠ 0
  threads : ∀ l, i.lanes.getLsbD l = true → ∃ th, g.threads[l]? = some th ∧ th.st = .runnable ∧ th.pc = pc ∧
              regsBusy w th = false ∧ th.pmarked (fld w 2 0) = false
  inside  : pc < pcEnd
  flaws   : i.flaws = []
  hit     : i.hit = true
  cached  : Sparse.find? r.icache (pc / 8) = some w
  opcode  : wOpc w = opc
  checked : wordOk k.nregs w = true

/-- An issue set (R131, R132): all such threads of the group at the PC, and the group and PC are those that R132 chooses. -/
structure Issuable (s : State) (i : Issue) (opc : Nat) (r : Run) (k : Kernel) (g : Group) (pc : Nat) (w : W64) : Prop
    extends IssueSet s i opc r k g pc w where
  whole   : ∀ l th, g.threads[l]? = some th → th.st = .runnable → th.pc = pc → regsBusy w th = false → i.lanes.getLsbD l = true
  chosen  : issueChosen r i pc = true

/-- A run whose scheduler has counted an issue (R132). -/
def Run.counted (r : Run) (k : Kernel) (i : Issue) (opc : Nat) : Run :=
  { r with sched := r.sched.issued r k.width i.group (bitsSet i.lanes) opc i.stalled i.co }

/-- What one issue of an instruction that changes only its threads leaves behind: each thread of the set whose guard holds
becomes what `R` says, each whose guard fails only goes on (R158), and nothing else differs but the issue's count on the
die (R396), its counts in the tile's scheduler (R132) and the model's counter of free values. -/
structure RegIssue (s t : State) (i : Issue) (r : Run) (pc : Nat) (w : W64) (R : Nat → Thread → Thread → Prop) : Prop where
  others  : t = { s with dies := (pmcAdd (1 + dieOfTile i.tile.val) 3 1 s).dies, tiles := t.tiles, free := t.free }
  tiles   : ∀ u, u ≠ i.tile.val → t.tile u = s.tile u
  run     : ∃ gs k, s.kernel? r.kid = some k ∧
              t.tile i.tile.val = { s.tile i.tile.val with run := some { r.counted k i (wOpc w) with groups := gs } }
  groups  : ∀ g', g' ≠ i.group → t.group? i.tile.val g' = s.group? i.tile.val g'
  off     : ∀ l, i.lanes.getLsbD l = false → t.thread? i.tile.val i.group l = s.thread? i.tile.val i.group l
  skipped : ∀ l th, i.lanes.getLsbD l = true → s.thread? i.tile.val i.group l = some th → guardOf w th = false →
              t.thread? i.tile.val i.group l = some { th with pc := pc + 8 }
  ran     : ∀ l th, i.lanes.getLsbD l = true → s.thread? i.tile.val i.group l = some th → guardOf w th = true →
              ∃ th', R l th th' ∧ t.thread? i.tile.val i.group l = some th'

/-- The kernel of a tile has aborted with a status and DETAIL and the tile has stopped issue (R140): the first abort stays. -/
def AbortedOn (t : State) (tile : Nat) (k : Kernel) (st : Status) (detail : Nat) : Prop :=
  (∃ k', t.kernel? k.kid = some k' ∧ k'.todo = 0 ∧
    k'.abort = (match k.abort with | some a => some a | none => some (st, detail))) ∧
  t.issues tile = false

/-- A command is an instruction that only writes registers, with opcode `opc`: from every issue set it completes, and each
thread whose guard holds changes as `R` says of the kernel, word, lane and thread, and goes on to the next instruction. From the last
instruction slot no thread can go on, and the kernel aborts with ST_ILLEGAL (R151). -/
def WritesRegs (c : Issue → Instr) (opc : Nat) (R : State → Issue → Kernel → W64 → Nat → Thread → Thread → Prop) : Prop :=
  ∀ s i r k g pc w, Issuable s i opc r k g pc w →
    (pc + 8 < pcEnd →
      Answers (exec (c i) s) (fun t => RegIssue s t i r pc w
        (fun l th th' => ∃ th1, R s i k w l th th1 ∧ th' = { th1 with pc := pc + 8 }))) ∧
    (pcEnd ≤ pc + 8 → Answers (exec (c i) s) (fun t => AbortedOn t i.tile.val k .illegal outOfRange))

/-- An issue set of one thread whose guard holds, lane `l` with thread `th`. -/
structure IssuableAlone (s : State) (i : Issue) (opc : Nat) (r : Run) (k : Kernel) (g : Group) (pc : Nat) (w : W64) (l : Nat)
    (th : Thread) : Prop where
  set    : Issuable s i opc r k g pc w
  alone  : ∀ j, i.lanes.getLsbD j = true ↔ j = l
  thread : s.thread? i.tile.val i.group l = some th
  guard  : guardOf w th = true

/-- The same, where the thread can go on to the next instruction (R151). -/
structure IssuableOne (s : State) (i : Issue) (opc : Nat) (r : Run) (k : Kernel) (g : Group) (pc : Nat) (w : W64) (l : Nat)
    (th : Thread) : Prop extends IssuableAlone s i opc r k g pc w l th where
  room   : pc + 8 < pcEnd

/-- An issue set whose threads are `th l`, lane by lane, and can go on to the next instruction (R151). -/
structure IssuableSet (s : State) (i : Issue) (opc : Nat) (r : Run) (k : Kernel) (g : Group) (pc : Nat) (w : W64) (th : Nat → Thread) :
    Prop where
  set    : Issuable s i opc r k g pc w
  thread : ∀ l, i.lanes.getLsbD l = true → s.thread? i.tile.val i.group l = some (th l)
  room   : pc + 8 < pcEnd

/-- The lanes of a set whose guard holds, lowest first. -/
def guarded (i : Issue) (w : W64) (th : Nat → Thread) : List Nat := (bitsSet i.lanes).filter (fun l => guardOf w (th l))

/-- The live threads of a group, all blocked at one group-wide instruction and put forward for its issue, which R132 chooses (R135). -/
structure Gathered (s : State) (i : Issue) (opc : Nat) (r : Run) (k : Kernel) (g : Group) (pc : Nat) (w : W64) : Prop where
  live    : s.live = true
  run     : (s.tile i.tile.val).run = some r
  going   : r.stopped = false
  kernel  : s.kernel? r.kid = some k
  group   : r.groups.find? (fun x => x.num == i.group) = some g
  lanes   : i.lanes ≠ 0
  threads : ∀ (l : Nat) (th : Thread), g.threads[l]? = some th → th.st ≠ .exited → th.st = .atGroupWide ∧ th.pc = pc ∧ th.pmarked (fld w 2 0) = false
  flaws   : i.flaws = []
  cached  : Sparse.find? r.icache (pc / 8) = some w
  opcode  : wOpc w = opc
  checked : wordOk k.nregs w = true
  chosen  : issueChosen r i pc = true

/-- A state after the issue of an instruction has been counted on its die (R396) and by its tile's scheduler (R132). -/
def counted (i : Issue) (opc : Nat) (s : State) : State :=
  let s := pmcAdd (1 + dieOfTile i.tile.val) 3 1 s
  match s.runKernel i.tile.val with
  | some k => s.modRun i.tile.val (fun r => r.counted k i opc)
  | none => s

/-- From one state to the next a tile's one thread becomes `th'`, other threads of its group stay, and outside the tile nothing
differs. -/
structure OneLane (s t : State) (i : Issue) (l : Nat) (th' : Thread) : Prop where
  others : t = { s with tiles := t.tiles }
  tiles  : ∀ u, u ≠ i.tile.val → t.tile u = s.tile u
  thread : t.thread? i.tile.val i.group l = some th'
  lanes  : ∀ j, j ≠ l → t.thread? i.tile.val i.group j = s.thread? i.tile.val i.group j

/-- A thread whose load has returned bytes (R141, R169): zero-extended, or sign-extended with SX where they are fewer than four. -/
def loaded (w : W64) (data : List Byte) (bad : Bool) (th : Thread) : Thread :=
  let v := ofBytes data
  let x : Nat := match wSx w, wSize w with
    | true, 0 => ((BitVec.ofNat 8 v).signExtend 32).toNat
    | true, 1 => ((BitVec.ofNat 16 v).signExtend 32).toNat
    | _, _ => v
  th.setRegs (wDst w) x bad (sizeRegs (wSize w))

/-- What an atomic leaves in memory (R172), over words of the access width: old, compare and operand values. -/
def atomLeaves (opc : Nat) (sx : Bool) (old cmp b : BitVec n) : BitVec n :=
  match opc with
  | 0x82 => old + b
  | 0x83 => b
  | 0x84 => if old = cmp then b else old
  | 0x85 => if (if sx then b.slt old else b.ult old) then b else old
  | _ => if (if sx then old.slt b else old.ult b) then b else old

/-- An HBM address that its home serves (R193, R199, R214, R217), to which no die in test mode cuts the path (R21), whose stack's port is
idle (R216), in whose pseudo-channel no generator runs (R215), with no destroyed contents, that no running save protects (R340) and no
running restore writes (R342). -/
structure Serves (s : State) (pa : Nat) : Prop where
  hbm   : ∃ p, paKind pa = .hbm p
  shown : paClosed pa = false
  up    : s.fenced (dieOfStack (s.home pa).1) = false
  works : s.pcFailed (s.home pa).1 (pcOf (s.home pa).2) = false
  still : s.bandBusy pa = false
  path  : ∀ r, s.cutOff r (dieOfStack (s.home pa).1) = false
  port  : (s.stack (s.home pa).1).p1500Busy = false
  whole : s.pool.ruins = []
  quiet : (s.tgen (s.home pa).1 (pcOf (s.home pa).2)).running = false
  open_ : isProtected pa s = false
  calm  : restoring pa s = false

/-- The same, where the result goes to DST and depends on word and thread only, its poison mark being that of its sources
(R141). -/
def Computes (c : Issue → Instr) (opc : Nat) (f : W64 → Thread → Nat) : Prop :=
  WritesRegs c opc (fun _ _ _ w _ th th' => th' = th.putDst w (f w th) (srcMarked w th))

/-- The lookup of a VID in a context finds its entry, with the right that an operation needs, in the object cache of die x, 0 the hub, and no
die is fenced (R259, R260). -/
structure CachedObj (s : State) (x c vid : Nat) (op : OOp) (p : Nat) : Prop where
  table : (s.ctx c).objV = true ∧ vid < 2 ^ (s.ctx c).objSize.toNat
  entry : ∃ e, (objCache x s).find? (fun e => e.ctx.val == c && e.vid == vid) = some e ∧ e.phys = p ∧
            (if op.isWait then e.wt else e.sg) = true
  whole : ∀ d, s.fenced d = false

/-- What an operation of a tile signals (R136): nothing, or object `p` of this module, whose entry is cached. -/
def SigReady (s : State) (tile : TileId) (ctx : Nat) (sig : Option SigRef) (p : Nat) : Prop :=
  ∀ r, sig = some r → r.ref.toNat < 2 ^ 20 ∧ CachedObj s (1 + tile.val / 24) ctx r.ref.toNat .signal p

/-- The signals that its end sends. -/
def sigSent (tile : TileId) (sig : Option SigRef) (p : Nat) : List Signal :=
  match sig with
  | some r => [⟨p, r.inc, some (Fin.ofNat 4 (tile.val / 24))⟩]
  | none => []

/-- Operands a and b of an integer instruction as words of its width (R162). -/
def aw (w : W64) (th : Thread) : BitVec (intBits w) := BitVec.ofNat _ (th.regsAt (wSa w) (intRegs w))
def bw (w : W64) (th : Thread) : BitVec (intBits w) := BitVec.ofNat _ (th.regsAt (wSb w) (intRegs w))

/-- IMM32 as a word of the width: sign-extended, or zero-extended when U = 1 (R162). -/
def iw (w : W64) : BitVec (intBits w) :=
  if wU w then (BitVec.extractLsb' 32 32 w).setWidth _ else (BitVec.extractLsb' 32 32 w).signExtend _

/-- A result that two words of the width determine. -/
def rr (f : {n : Nat} → BitVec n → BitVec n → BitVec n) (w : W64) (th : Thread) : Nat := (f (aw w th) (bw w th)).toNat
def ri (f : {n : Nat} → BitVec n → BitVec n → BitVec n) (w : W64) (th : Thread) : Nat := (f (aw w th) (iw w)).toNat

/-- The relation CMP of two words (R161, R164). -/
def wordRel (c : Nat) (u : Bool) (a b : BitVec n) : Bool :=
  let lt := if u then a.ult b else a.slt b
  let gt := if u then b.ult a else b.slt a
  match c with
  | 0 => a == b
  | 1 => a != b
  | 2 => lt
  | 3 => !gt
  | 4 => gt
  | _ => !lt

/-- A started command of a queue that its own row has not run yet, of an opcode, in a running module (R285, R287). -/
structure Begun (s : State) (q : QId) (n opc : Nat) (c : Cmd) : Prop where
  live  : s.live = true
  found : startedCmd s q.val n = some c
  opc   : c.opc = opc
  fresh : c.phase = .started

/-- The same, once it is under way. -/
structure UnderWay (s : State) (q : QId) (n opc : Nat) (c : Cmd) : Prop where
  live    : s.live = true
  found   : startedCmd s q.val n = some c
  opc     : c.opc = opc
  running : c.phase = .running

/-- A command is illegal with a DETAIL: it completes with ST_ILLEGAL and has no other effect (R295). -/
def Illegal (i : Instr) (s : State) (q : QId) (n detail : Nat) : Prop :=
  exec i s = .next (completeCmd q.val n .illegal detail 0 s)

/-- A request or response of a TYPE that comes over an UP node-link quad whole, next in sequence and for this node, from a sender with the
incarnation held for it (R313, R314, R316, R317, R321, R327). -/
structure Arrives (s : State) (f : Frame) (typ : Nat) : Prop where
  live  : s.live = true
  up    : (s.quad f.quad.val).state = 2
  role  : (s.quad f.quad.val).role = 1
  whole : f.crcOk = true ∧ f.icrc.toNat = frameIcrc f
  next  : f.link.extractLsb' 0 12 = (s.quad f.quad.val).ackseq + 1 ∧ f.link.getLsbD 24 = false
  typ   : f.typ.toNat = typ
  here  : s.net.nodeId ≠ 0 ∧ f.dst = s.net.nodeId
  same  : (s.peer f.src.toNat).heldIncarn = some f.incarn

/-- The state in which a response that arrives is taken: by the link (R327), NODE_ID locked. -/
def heard (f : Frame) (s : State) : State :=
  let s := (linkTake f s).2
  { s with net := { s.net with nodeLock := true } }

/-- The same for a request, which the negative also records. -/
def heardReq (f : Frame) (s : State) : State := trace 0 6 (frameRecord f.quad.val f f.src + 2 ^ 96) (heard f s)

/-- A frame of a type of which `P` holds is kept by a quad until the peer acknowledges it (R327). -/
def Queued (s : State) (q : QuadId) (typ : Nat) (P : Frame → Prop) : Prop :=
  (∃ e ∈ (s.quad q.val).replayBuf, e.2.1 = typ ∧ P e.2.2) ∨ (∃ e ∈ (s.quad q.val).waitq, e.1 = typ ∧ P e.2)

/-- A request of a type of which `P` holds is unanswered at a node; unless its window still holds it back, a link keeps it (R315, R323). -/
def Asked (s : State) (node typ : Nat) (P : Frame → Prop) : Prop :=
  ∃ r ∈ (s.peer node).reqs, r.typ = typ ∧ P r.frame ∧ (r.held = false → ∃ q : QuadId, Queued s q typ P)

/-- A node other than this one to which a node link is up and which is not lost (R320, R323). -/
def Reached (s : State) (node : Nat) : Prop :=
  s.net.nodeId ≠ 0 ∧ node ≠ s.net.nodeId.toNat ∧ node < 2 ^ 20 ∧ (s.peer node).lost = false ∧ nlQuads s node ≠ []

/-- The canonical form of memory and of the tables of units: keys strictly rising, and nothing listed that reads as an unlisted
key does. -/
structure Canonical (s : State) : Prop where
  hbm     : Memory.wf s.pool.hbm = true
  host    : Memory.wf s.hostMem = true
  tiles   : Sparse.wf {} s.tiles = true
  scratch : ∀ t, Memory.wf (s.tile t).scratch = true
  dies    : Sparse.wf {} s.dies = true
  pmcs    : Sparse.wf {} s.hub.pmc = true ∧ ∀ d, Sparse.wf {} (s.die d).pmc = true
  ctxs    : Sparse.wf {} s.ctxs = true
  arms    : ∀ c, Sparse.wf {} (s.ctx c).arms = true
  sqs     : Sparse.wf {} s.sqs = true
  cqs     : Sparse.wf {} s.cqs = true
  windows : Sparse.wf {} s.windows = true
  objects : Sparse.wf 0 s.sync.vals = true
  stackRegs  : Sparse.wf {} s.pool.stack = true
  quads   : Sparse.wf {} s.net.quad = true
  peers   : Sparse.wf {} s.net.peers = true
  rings   : Sparse.wf {} s.net.nicTx = true
  dividers : Sparse.wf 2 s.cores.srvDiv = true ∧ Sparse.wf 2 s.cores.srvAct = true
  harts   : Sparse.wf {} s.cores.harts = true
  log     : Sparse.wf {} s.ras.log = true

end Machine

/-- The tile on whose memories a command works, with the errors that it meets there (R388). -/
def Instr.meets (i : Instr) : Option (TileId × List Flaw) :=
  match i with
  | .nop i | .iadd i | .isub i | .imul i | .imulh i | .imad i | .imin i | .imax i | .andR i | .orR i | .xorR i | .shl i
  | .shr i | .popc i | .clz i | .brev i | .idiv i | .irem i | .sel i | .mov i | .isetp i | .iaddI i | .isubI i | .imulI i
  | .iminI i | .imaxI i | .andI i | .orI i | .xorI i | .shlI i | .shrI i | .movI i | .isetpI i | .plog i | .p2g i | .g2p i
  | .sreg i | .fadd i | .fsub i | .fmul i | .ffma i | .fmin i | .fmax i | .fabs i | .fneg i | .fdiv i | .fsqrt i | .frcp i
  | .frsqrt i | .fexp2 i | .flog2 i | .fsin i | .fcos i | .fsetp i | .cvt i | .ld i | .st i | .atomAdd i | .atomSwap i | .atomCas i
  | .atomMin i | .atomMax i | .bra i | .brx i | .call i | .exitT i | .trap i | .barG i | .barT i | .sig i | .sigI i | .waits i
  | .fence i | .mxRun i | .vxRun i | .dxCopy i | .dxFill i | .dxRed i => some (i.tile, i.flaws)
  | .mergeBufferDrain t _ fl | .mxOpComplete t _ fl | .vxBasicOp t fl | .vxCvt t fl | .vxQnt t fl | .vxTranscendental t fl
  | .updateAdamw t fl | .updateSgdm t fl | .dxOpComplete t _ _ fl => some (t, fl)
  | _ => none

/-- The command without the errors. -/
def Instr.flawless (i : Instr) : Instr :=
  match i with
  | .nop i => .nop { i with flaws := [] }
  | .iadd i => .iadd { i with flaws := [] }
  | .isub i => .isub { i with flaws := [] }
  | .imul i => .imul { i with flaws := [] }
  | .imulh i => .imulh { i with flaws := [] }
  | .imad i => .imad { i with flaws := [] }
  | .imin i => .imin { i with flaws := [] }
  | .imax i => .imax { i with flaws := [] }
  | .andR i => .andR { i with flaws := [] }
  | .orR i => .orR { i with flaws := [] }
  | .xorR i => .xorR { i with flaws := [] }
  | .shl i => .shl { i with flaws := [] }
  | .shr i => .shr { i with flaws := [] }
  | .popc i => .popc { i with flaws := [] }
  | .clz i => .clz { i with flaws := [] }
  | .brev i => .brev { i with flaws := [] }
  | .idiv i => .idiv { i with flaws := [] }
  | .irem i => .irem { i with flaws := [] }
  | .sel i => .sel { i with flaws := [] }
  | .mov i => .mov { i with flaws := [] }
  | .isetp i => .isetp { i with flaws := [] }
  | .iaddI i => .iaddI { i with flaws := [] }
  | .isubI i => .isubI { i with flaws := [] }
  | .imulI i => .imulI { i with flaws := [] }
  | .iminI i => .iminI { i with flaws := [] }
  | .imaxI i => .imaxI { i with flaws := [] }
  | .andI i => .andI { i with flaws := [] }
  | .orI i => .orI { i with flaws := [] }
  | .xorI i => .xorI { i with flaws := [] }
  | .shlI i => .shlI { i with flaws := [] }
  | .shrI i => .shrI { i with flaws := [] }
  | .movI i => .movI { i with flaws := [] }
  | .isetpI i => .isetpI { i with flaws := [] }
  | .plog i => .plog { i with flaws := [] }
  | .p2g i => .p2g { i with flaws := [] }
  | .g2p i => .g2p { i with flaws := [] }
  | .sreg i => .sreg { i with flaws := [] }
  | .fadd i => .fadd { i with flaws := [] }
  | .fsub i => .fsub { i with flaws := [] }
  | .fmul i => .fmul { i with flaws := [] }
  | .ffma i => .ffma { i with flaws := [] }
  | .fmin i => .fmin { i with flaws := [] }
  | .fmax i => .fmax { i with flaws := [] }
  | .fabs i => .fabs { i with flaws := [] }
  | .fneg i => .fneg { i with flaws := [] }
  | .fdiv i => .fdiv { i with flaws := [] }
  | .fsqrt i => .fsqrt { i with flaws := [] }
  | .frcp i => .frcp { i with flaws := [] }
  | .frsqrt i => .frsqrt { i with flaws := [] }
  | .fexp2 i => .fexp2 { i with flaws := [] }
  | .flog2 i => .flog2 { i with flaws := [] }
  | .fsin i => .fsin { i with flaws := [] }
  | .fcos i => .fcos { i with flaws := [] }
  | .fsetp i => .fsetp { i with flaws := [] }
  | .cvt i => .cvt { i with flaws := [] }
  | .ld i => .ld { i with flaws := [] }
  | .st i => .st { i with flaws := [] }
  | .atomAdd i => .atomAdd { i with flaws := [] }
  | .atomSwap i => .atomSwap { i with flaws := [] }
  | .atomCas i => .atomCas { i with flaws := [] }
  | .atomMin i => .atomMin { i with flaws := [] }
  | .atomMax i => .atomMax { i with flaws := [] }
  | .bra i => .bra { i with flaws := [] }
  | .brx i => .brx { i with flaws := [] }
  | .call i => .call { i with flaws := [] }
  | .exitT i => .exitT { i with flaws := [] }
  | .trap i => .trap { i with flaws := [] }
  | .barG i => .barG { i with flaws := [] }
  | .barT i => .barT { i with flaws := [] }
  | .sig i => .sig { i with flaws := [] }
  | .sigI i => .sigI { i with flaws := [] }
  | .waits i => .waits { i with flaws := [] }
  | .fence i => .fence { i with flaws := [] }
  | .mxRun i => .mxRun { i with flaws := [] }
  | .vxRun i => .vxRun { i with flaws := [] }
  | .dxCopy i => .dxCopy { i with flaws := [] }
  | .dxFill i => .dxFill { i with flaws := [] }
  | .dxRed i => .dxRed { i with flaws := [] }
  | .mergeBufferDrain t n _ => .mergeBufferDrain t n []
  | .mxOpComplete t a _ => .mxOpComplete t a []
  | .vxBasicOp t _ => .vxBasicOp t []
  | .vxCvt t _ => .vxCvt t []
  | .vxQnt t _ => .vxQnt t []
  | .vxTranscendental t _ => .vxTranscendental t []
  | .updateAdamw t _ => .updateAdamw t []
  | .updateSgdm t _ => .updateSgdm t []
  | .dxOpComplete t n hw _ => .dxOpComplete t n hw []
  | i => i

end Sys2Proof
end

