-- ==== Sys2Proof/Certificates/Slice0/Obligations.lean ====
section
/-! DEFINITION. The statements for the provers: what the manual's rules say the commands do, over every state and operand that
meets their hypotheses. -/

open Sys2Proof Sys2Proof.Machine

/-- For every command c, every rest of the queue and every state: the step of the state with c in front is exec of c on the
state with the rest. -/
def Obligations.StepRunsFront : Prop :=
  ∀ (c : Instr) (rest : List Instr) (s : State),
    step { s with pending := c :: rest } = exec c { s with pending := rest }

/-- From every issue set, IADD, ISUB, IMUL, AND, OR, XOR and MOV and their I forms complete: in each thread whose guard holds
the registers at DST receive the result modulo 2^w over the 32-bit or 64-bit operands (IMM32 sign-extended, or zero-extended with
U), with the poison mark of the sources, and the thread goes on; SHL shifts by b mod w, SHR right by b mod w with the sign or, with
U, with zeros, IMIN and IMAX give the smaller or larger operand, signed or, with U, unsigned. Nothing else changes but the issue's
count on the die.
From the last instruction slot the kernel aborts with ST_ILLEGAL. -/
def Obligations.IntegerArithmetic : Prop :=
  Computes .iadd 0x01 (rr (fun a b => a + b)) ∧ Computes .isub 0x02 (rr (fun a b => a - b)) ∧
  Computes .imul 0x03 (rr (fun a b => a * b)) ∧ Computes .andR 0x08 (rr (fun a b => a &&& b)) ∧
  Computes .orR 0x09 (rr (fun a b => a ||| b)) ∧ Computes .xorR 0x0A (rr (fun a b => a ^^^ b)) ∧
  Computes .mov 0x13 (fun w th => (aw w th).toNat) ∧
  Computes .iaddI 0x21 (ri (fun a b => a + b)) ∧ Computes .isubI 0x22 (ri (fun a b => a - b)) ∧
  Computes .imulI 0x23 (ri (fun a b => a * b)) ∧ Computes .andI 0x28 (ri (fun a b => a &&& b)) ∧
  Computes .orI 0x29 (ri (fun a b => a ||| b)) ∧ Computes .xorI 0x2A (ri (fun a b => a ^^^ b)) ∧
  Computes .movI 0x33 (fun w _ => (BitVec.extractLsb' 32 32 w).toNat) ∧
  Computes .shl 0x0B (rr (fun {n} a b => a <<< (b.toNat % n))) ∧
  Computes .shlI 0x2B (ri (fun {n} a b => a <<< (b.toNat % n))) ∧
  Computes .shr 0x0C (fun w => rr (fun {n} a b =>
    if wU w then a >>> (b.toNat % n) else a.sshiftRight (b.toNat % n)) w) ∧
  Computes .shrI 0x2C (fun w => ri (fun {n} a b =>
    if wU w then a >>> (b.toNat % n) else a.sshiftRight (b.toNat % n)) w) ∧
  Computes .imin 0x06 (fun w => rr (fun a b => if (if wU w then b.ult a else b.slt a) then b else a) w) ∧
  Computes .iminI 0x26 (fun w => ri (fun a b => if (if wU w then b.ult a else b.slt a) then b else a) w) ∧
  Computes .imax 0x07 (fun w => rr (fun a b => if (if wU w then a.ult b else a.slt b) then b else a) w) ∧
  Computes .imaxI 0x27 (fun w => ri (fun a b => if (if wU w then a.ult b else a.slt b) then b else a) w)

/-- From every issue set, IMULH gives the high 32 bits of the 64-bit product (unsigned with U), IMAD the low 32 bits of a × b + c
or, with WIDE, the 64-bit product plus the pair c, IDIV the quotient truncated toward zero and IREM the remainder with the sign
of a (unsigned with U), with the results for b = 0 of R163; POPC counts the 1 bits of a, CLZ its leading zeros (32 for 0), BREV moves
bit i to bit 31 − i, SEL gives a where p[P] is 1 and else b (that a poisoned predicate marks the result too is the model's reading, LOG 83), and
NOP changes no register. Nothing else changes.
From the last instruction slot the kernel aborts with ST_ILLEGAL. -/
def Obligations.IntegerProductsAndQuotients : Prop :=
  Computes .imulh 0x04 (fun w th =>
    let a := th.reg (wSa w)
    let b := th.reg (wSb w)
    let p : BitVec 64 := if wU w then a.setWidth 64 * b.setWidth 64 else a.signExtend 64 * b.signExtend 64
    (p.extractLsb' 32 32).toNat) ∧
  Computes .imad 0x05 (fun w th =>
    let a := th.reg (wSa w)
    let b := th.reg (wSb w)
    let p : BitVec 64 := if wU w then a.setWidth 64 * b.setWidth 64 else a.signExtend 64 * b.signExtend 64
    if wWide w then (p + (th.reg (wSc w + 1) ++ th.reg (wSc w))).toNat
    else (a * b + th.reg (wSc w)).toNat) ∧
  Computes .idiv 0x10 (fun w th =>
    let a := th.reg (wSa w)
    let b := th.reg (wSb w)
    if b = 0 then 0xFFFFFFFF else if wU w then (a / b).toNat else (a.sdiv b).toNat) ∧
  Computes .irem 0x11 (fun w th =>
    let a := th.reg (wSa w)
    let b := th.reg (wSb w)
    if b = 0 then a.toNat else if wU w then (a % b).toNat else (a.srem b).toNat) ∧
  Computes .popc 0x0D (fun w th => ((List.range 32).filter (fun i => (th.reg (wSa w)).getLsbD i)).length) ∧
  Computes .clz 0x0E (fun w th => (th.reg (wSa w)).clz.toNat) ∧
  Computes .brev 0x0F (fun w th => (th.reg (wSa w)).reverse.toNat) ∧
  WritesRegs .sel 0x12 (fun _ _ _ w _ th th' =>
    th' = th.putDst w (if th.pred (wP w) then (aw w th).toNat else (bw w th).toNat)
      (srcMarked w th || th.pmarked (wP w))) ∧
  WritesRegs .nop 0x00 (fun _ _ _ _ _ th th' => th' = th)

/-- In each thread whose guard holds, IDIV with b = 0 leaves 0xFFFF_FFFF at DST and IREM with b = 0 leaves a; signed, −2³¹ by −1
leaves the quotient −2³¹ and the remainder 0. Nothing else changes.
From the last instruction slot the kernel aborts with ST_ILLEGAL. -/
def Obligations.DivisionCorners : Prop :=
  WritesRegs .idiv 0x10 (fun _ _ _ w _ th th' =>
    (th.reg (wSb w) = 0 → th' = th.putDst w 0xFFFFFFFF (srcMarked w th)) ∧
    (wU w = false → th.reg (wSa w) = 0x80000000 → th.reg (wSb w) = 0xFFFFFFFF →
      th' = th.putDst w 0x80000000 (srcMarked w th))) ∧
  WritesRegs .irem 0x11 (fun _ _ _ w _ th th' =>
    (th.reg (wSb w) = 0 → th' = th.putDst w (th.reg (wSa w)).toNat (srcMarked w th)) ∧
    (wU w = false → th.reg (wSa w) = 0x80000000 → th.reg (wSb w) = 0xFFFFFFFF →
      th' = th.putDst w 0 (srcMarked w th)))

/-- From every issue set, ISETP writes the comparison of its words, combined with p[P] as COMB selects, to the predicate that
DST[14:12] names, ISETP.I the comparison alone, FSETP the comparison of floats, in which a NaN makes every relation false but
NE, PLOG the bit of LUT that its three predicates select, P2G the sum of pᵢ × 2ⁱ with bit 7 set, and G2P the bits of a whose
MASK bit is 1. The poison marks that predicates carry and pass on are the model's reading (LOG 83). Nothing else changes.
From the last instruction slot the kernel aborts with ST_ILLEGAL. -/
def Obligations.Predicates : Prop :=
  WritesRegs .isetp 0x14 (fun _ _ _ w _ th th' =>
    let c := wordRel (wCmp w) (wU w) (aw w th) (bw w th)
    let p := th.pred (wP w)
    th' = th.putPred (wDstP w)
      (match wComb w with | 0 => c | 1 => c && p | 2 => c || p | _ => c ^^ p)
      (srcMarked w th || (wComb w != 0 && th.pmarked (wP w)))) ∧
  WritesRegs .isetpI 0x34 (fun _ _ _ w _ th th' =>
    th' = th.putPred (wDstP w) (wordRel (wCmp w) (wU w) (aw w th) (iw w)) (srcMarked w th)) ∧
  WritesRegs .fsetp 0x50 (fun _ _ _ w _ th th' =>
    let a := fA w th
    let b := fB w th
    let c : Bool :=
      if a.isNan || b.isNan then wCmp w == 1
      else match wCmp w with
        | 0 => a.eqv b
        | 1 => !a.eqv b
        | 2 => a.lt b
        | 3 => a.le b
        | 4 => b.lt a
        | _ => b.le a
    let p := th.pred (wP w)
    th' = th.putPred (wDstP w)
      (match wComb w with | 0 => c | 1 => c && p | 2 => c || p | _ => c ^^ p)
      (srcMarked w th || (wComb w != 0 && th.pmarked (wP w)))) ∧
  WritesRegs .plog 0x15 (fun _ _ _ w _ th th' =>
    let pa := fld w 20 18
    let pb := fld w 26 24
    let pc := fld w 32 30
    th' = th.putPred (wDstP w)
      ((w.extractLsb' 48 8).getLsbD ((if th.pred pa then 4 else 0) + (if th.pred pb then 2 else 0) + (if th.pred pc then 1 else 0)))
      (th.pmarked pa || th.pmarked pb || th.pmarked pc)) ∧
  WritesRegs .p2g 0x16 (fun _ _ _ w _ th th' =>
    ∃ bad, th' = th.putDst w (128 + th.preds.toNat % 128) bad ∧ (bad = true ↔ ∃ p, p < 7 ∧ th.pmarked p = true)) ∧
  WritesRegs .g2p 0x17 (fun _ _ _ w _ th th' =>
    th' = { th with preds := th'.preds, pmarks := th'.pmarks } ∧
    ∀ p, p < 7 → th'.pred p = (if w.getLsbD (48 + p) then (th.reg (wSa w)).getLsbD p else th.pred p) ∧
      th'.pmarked p = (if w.getLsbD (48 + p) then th.marked (wSa w) else th.pmarked p))

/-- From every issue set SREG writes, without a poison mark, the thread's lane, the group width, the group's launch number, the number of
groups, this tile's index among the kernel's tiles, their number, the tile number, the context, the declared registers, the length of the
argument block, the die's timestamp or one half of it; of SR_CYC the statement says only that some count is written, since the model leaves the
part of a TEL count free (LOG 31). Nothing else changes.
From the last instruction slot the kernel aborts with ST_ILLEGAL. -/
def Obligations.SpecialRegisters : Prop :=
  WritesRegs .sreg 0x38 (fun s i k w l th th' => ∃ v, th' = th.putDst w v false ∧
    match wImm w with
    | 0x00 => v = l
    | 0x01 => v = k.width
    | 0x02 => v = i.group
    | 0x03 => v = k.ngroup
    | 0x04 => v = ((List.range 96).filter (fun u => k.tiles.getLsbD u && decide (u < i.tile.val))).length
    | 0x05 => v = ((List.range 96).filter (fun u => k.tiles.getLsbD u)).length
    | 0x06 => v = i.tile.val
    | 0x07 => v = k.ctx.val
    | 0x08 => v = k.nregs
    | 0x09 => v = k.args.length
    | 0x12 => v = (s.die (i.tile.val / 24)).tel.toNat
    | 0x13 => v = (s.die (i.tile.val / 24)).tel.toNat / 2 ^ 32
    | _ => True)

/-- From every issue set, FADD, FSUB, FMUL, FFMA, FDIV and FSQRT write to DST the exact sum, difference, product, product plus c, quotient or
root of the values that the operand bits hold in TYPE, rounded once: to nearest or, where RND is 0b01 or RND is 0b11 and the context default is
0b01, toward zero. CVT converts the value in format SRC so. Nothing else changes.
From the last instruction slot the kernel aborts with ST_ILLEGAL.
From every issue set, FMIN and FMAX give the canonical NaN where an operand is a NaN and else the bits of the smaller or larger operand, of a
where the values are equal; FABS clears and FNEG inverts the sign bit, a NaN giving the canonical NaN. Nothing else changes.
From the last instruction slot the kernel aborts with ST_ILLEGAL. -/
def Obligations.FloatArithmetic : Prop :=
  (let rnd : Kernel → W64 → Round := fun k w => if wRnd w = 1 ∨ (wRnd w = 3 ∧ k.rnd = 1) then .zero else .near
  let val : W64 → Thread → Nat → XR := fun w th r =>
    decodeElem (wType w) (th.regsAt r (if wType w = 0x0F then 2 else 1) % 2 ^ fmtBits (wType w))
  let rounds : (Issue → Instr) → Nat → (XR → XR → XR → XR) → Prop := fun c opc f =>
    WritesRegs c opc (fun _ _ k w _ th th' =>
      th' = th.putDst w (encodeElem (wType w) (rnd k w) (f (val w th (wSa w)) (val w th (wSb w)) (val w th (wSc w)))).1
        (srcMarked w th))
  rounds .fadd 0x40 (fun a b _ => a.add b) ∧ rounds .fsub 0x41 (fun a b _ => a.add b.neg) ∧
  rounds .fmul 0x42 (fun a b _ => a.mul b) ∧ rounds .ffma 0x43 (fun a b c => (a.mul b).add c) ∧
  rounds .fdiv 0x48 (fun a b _ => a.div b) ∧ rounds .fsqrt 0x49 (fun a _ _ => a.sqrt) ∧
  WritesRegs .cvt 0x51 (fun _ _ k w _ th th' => th' = th.putDst w (cvtOut k w (cvtIn w th)) (srcMarked w th))) ∧
  (let bits : W64 → Thread → Nat → Nat := fun w th r =>
    th.regsAt r (if wType w = 0x0F then 2 else 1) % 2 ^ fmtBits (wType w)
  let nan : W64 → Nat := fun w => (encodeElem (wType w) .near .nan).1
  let top : W64 → Nat := fun w => fmtBits (wType w) - 1
  Computes .fmin 0x44 (fun w th =>
    if (fA w th).isNan || (fB w th).isNan then nan w
    else if (fB w th).lt (fA w th) then bits w th (wSb w) else bits w th (wSa w)) ∧
  Computes .fmax 0x45 (fun w th =>
    if (fA w th).isNan || (fB w th).isNan then nan w
    else if (fA w th).lt (fB w th) then bits w th (wSb w) else bits w th (wSa w)) ∧
  Computes .fabs 0x46 (fun w th =>
    if (fA w th).isNan then nan w else bits w th (wSa w) % 2 ^ top w) ∧
  Computes .fneg 0x47 (fun w th =>
    if (fA w th).isNan then nan w else bits w th (wSa w) ^^^ 2 ^ top w))

/-- From every issue set each of the six completes and writes to DST fp32 bits that are: at an operand with a special value of R116, that
value (NaN and 0 of the reciprocals and the logarithm, NaN and the infinities of the exponential, NaN and the infinities of sine and cosine); else, at an operand x of FRCP whose reciprocal neither saturates nor underflows to an infinity, either the rounded reciprocal or a finite value that
differs from 1/x by at most one ulp of 1/x plus the rounding term. Nothing else changes.
From the last instruction slot the kernel aborts with ST_ILLEGAL. -/
def Obligations.FloatFunctions : Prop :=
  let rnd : Kernel → W64 → Round := fun k w => if wRnd w = 1 ∨ (wRnd w = 3 ∧ k.rnd = 1) then .zero else .near
  let special : (Issue → Instr) → Nat → (XR → Option XR) → Prop := fun c opc sp =>
    WritesRegs c opc (fun _ _ k w _ th th' => ∃ v, th' = th.putDst w v (srcMarked w th) ∧
      ∀ y, sp (decodeElem 0x0E (th.reg (wSa w)).toNat) = some y → v = (encodeElem 0x0E (rnd k w) y).1)
  let zeroOr : XR → XR → Option XR := fun z x => if x.isNan then some .nan else if x.isZero then some z else none
  special .frcp 0x4A (zeroOr (.inf false)) ∧ special .frsqrt 0x4B (zeroOr (.inf false)) ∧
  special .fexp2 0x4C (fun x => match x with
    | .nan => some .nan | .inf true => some .zero | .inf false => some (.inf false) | _ => none) ∧
  special .flog2 0x4D (zeroOr (.inf true)) ∧
  special .fsin 0x4E (fun x => if x.isNan || x.isInf then some .nan else none) ∧
  special .fcos 0x4F (fun x => if x.isNan || x.isInf then some .nan else none) ∧
  WritesRegs .frcp 0x4A (fun _ _ k w _ th th' => ∃ v, th' = th.putDst w v (srcMarked w th) ∧
    let x := decodeElem 0x0E (th.reg (wSa w)).toNat
    let f := XR.one.div x
    (x.isNan || x.isInf || x.isZero) = false →
      v = (encodeElem 0x0E (rnd k w) f).1 ∨
      ((decodeElem 0x0E v).sub f).abs.le ((ulp f32 f).add (roundTerm 0x0E (rnd k w) (decodeElem 0x0E v))) = true)

/-- For a thread that issues alone with no load outstanding on its tile and an unmarked address: a misaligned LD aborts the kernel with
ST_ILLEGAL; a load of the argument block, of the own scratchpad, or of memory whose bytes all lie in one merging-buffer entry or whose line is in the
L1, writes those bytes to DST, zero-extended or with SX sign-extended, with the poison mark of the bytes, and the thread goes on; a load
of memory that misses both leaves its registers waiting for the line and the thread goes on. No memory changes. A set of any number of threads whose loads are
of the argument block or of the own scratchpad gives each thread whose guard holds its own bytes. -/
def Obligations.Loads : Prop :=
  (∀ s i r k g pc w th, IssuableSet s i 0x80 r k g pc w th → (s.tile i.tile.val).fills = [] →
    let n := 2 ^ wSize w
    let a : Nat → Nat := fun l => memAddr w (th l)
    let x := s.tile i.tile.val
    wSpace w = 2 ∨ wSpace w = 1 ∧ s.fenced (i.tile.val / 24) = false ∧ (∀ l ∈ guarded i w th, a l + n ≤ 2 ^ 23) →
    (∀ l ∈ guarded i w th, addrMarked w (th l) = false ∧ a l % n = 0) →
    Answers (exec (.ld i) s) (fun t =>
      t = { counted i 0x80 s with tiles := t.tiles } ∧ (t.tile i.tile.val).scratch = x.scratch ∧
      ∀ l, i.lanes.getLsbD l = true → t.thread? i.tile.val i.group l = some
        (if guardOf w (th l) then
          { loaded w (if wSpace w = 2 then (List.range n).map (fun j => k.args.getD (a l + j) 0) else Mem.bytes x.scratch (a l) n)
              (wSpace w == 1 && (List.range n).any (fun j => KeySet.has x.spoison ((a l + j) / 8))) (th l) with pc := pc + 8 }
         else { th l with pc := pc + 8 }))) ∧
  ∀ s i r k g pc w l th, IssuableOne s i 0x80 r k g pc w l th → (s.tile i.tile.val).fills = [] → addrMarked w th = false →
    let n := 2 ^ wSize w
    let a := memAddr w th
    let x := s.tile i.tile.val
    (a % n ≠ 0 → Answers (exec (.ld i) s) (fun t => AbortedOn t i.tile.val k .illegal 2)) ∧
    (a % n = 0 → wSpace w = 2 →
      Answers (exec (.ld i) s) (fun t =>
        OneLane (counted i 0x80 s) t i l { loaded w ((List.range n).map (fun j => k.args.getD (a + j) 0)) false th with pc := pc + 8 })) ∧
    (a % n = 0 → wSpace w = 1 → a + n ≤ 2 ^ 23 → s.fenced (i.tile.val / 24) = false →
      Answers (exec (.ld i) s) (fun t =>
        OneLane (counted i 0x80 s) t i l
          { loaded w (Mem.bytes x.scratch a n) ((List.range n).any (fun j => KeySet.has x.spoison ((a + j) / 8))) th with
            pc := pc + 8 })) ∧
    (∀ pa coh s1, a % n = 0 → wSpace w = 0 →
      translate (.tile i.tile) k.ctx.val a .load false (counted i 0x80 s) = (.ok pa coh, s1) →
      s1.eng.stalled = false →
      s1.thread? i.tile.val i.group l = some th → (s1.tile i.tile.val).fills = [] →
      ((∃ p, paKind pa = .hbm p) ∨ ∃ p, paKind pa = .host p) →
      (∀ data, (s1.tile i.tile.val).forward pa n = .all data →
        Answers (exec (.ld i) s) (fun t =>
          OneLane s1 t i l { loaded w (data.map (·.1)) (data.any (·.2)) th with pc := pc + 8 })) ∧
      (∀ j line, (s1.tile i.tile.val).forward pa n = .none → (s1.tile i.tile.val).l1Find (pa / 512) = some (j, line) →
        Answers (exec (.ld i) s) (fun t =>
          OneLane s1 t i l { loaded w ((List.range n).map (fun q => line.data.getD (pa % 512 + q) 0))
              ((List.range n).any (fun q => line.poison.getD ((pa % 512 + q) / 32) false)) th with pc := pc + 8 })) ∧
      ((s1.tile i.tile.val).forward pa n = .none → (s1.tile i.tile.val).l1Find (pa / 512) = none →
        Answers (exec (.ld i) s) (fun t =>
          (∃ f, (t.tile i.tile.val).fills = [f] ∧ f.pa = pa ∧ f.group = i.group ∧ f.lane = l ∧ f.dst.toNat = wDst w ∧
            f.size = wSize w ∧ f.sx = wSx w) ∧
          (∃ th', t.thread? i.tile.val i.group l = some th' ∧ th'.pc = pc + 8 ∧ th'.regs = th.regs ∧
            ∀ q, q < 64 → th'.busy.getLsbD q =
              (th.busy.getLsbD q || (q != 0 && decide (wDst w ≤ q ∧ q < wDst w + sizeRegs (wSize w))))) ∧
          t.pool = s1.pool ∧ t.hostMem = s1.hostMem)))

/-- For a thread that issues alone with no load outstanding on its tile and an unmarked address: a misaligned ST aborts the kernel with
ST_ILLEGAL; a store to the own scratchpad stores the low bytes of g[SB] (a pair or a quad) at the address, every byte of the scratchpad outside them reads
as before, and no other memory changes; a store to HBM or host memory that finds its granule's entry or a free one leaves its bytes in that entry, so
that a load of the same bytes takes them, and changes no memory, no scratchpad. The thread goes on. A set of any number of threads that stores to the own
scratchpad stores in the order of its lanes: a byte that several threads store holds the value of the highest-numbered one (R134). -/
def Obligations.Stores : Prop :=
  (∀ s i r k g pc w th, IssuableSet s i 0x81 r k g pc w th → (s.tile i.tile.val).fills = [] → wSpace w = 1 →
    s.fenced (i.tile.val / 24) = false →
    let n := 2 ^ wSize w
    let a : Nat → Nat := fun l => memAddr w (th l)
    let data : Nat → List Byte := fun l => toBytes ((th l).regsAt (wSb w) (sizeRegs (wSize w))) n
    let x := s.tile i.tile.val
    (∀ l ∈ guarded i w th, addrMarked w (th l) = false ∧ a l % n = 0 ∧ a l + n ≤ 2 ^ 23) →
    Answers (exec (.st i) s) (fun t =>
      t = { counted i 0x81 s with tiles := t.tiles } ∧
      (∀ l, i.lanes.getLsbD l = true → t.thread? i.tile.val i.group l = some { th l with pc := pc + 8 }) ∧
      (t.tile i.tile.val).scratch = (guarded i w th).foldl (fun m l => Mem.setBytes m (a l) (data l)) x.scratch ∧
      (∀ l ∈ guarded i w th, ∀ j, j < n → (∀ m ∈ guarded i w th, l < m → ¬(a m ≤ a l + j ∧ a l + j < a m + n)) →
        Mem.byte (t.tile i.tile.val).scratch (a l + j) = (data l).getD j 0))) ∧
  ∀ s i r k g pc w l th, IssuableOne s i 0x81 r k g pc w l th → (s.tile i.tile.val).fills = [] → addrMarked w th = false →
    let n := 2 ^ wSize w
    let a := memAddr w th
    let x := s.tile i.tile.val
    let data := toBytes (th.regsAt (wSb w) (sizeRegs (wSize w))) n
    (a % n ≠ 0 → Answers (exec (.st i) s) (fun t => AbortedOn t i.tile.val k .illegal 2)) ∧
    (a % n = 0 → wSpace w = 1 → a + n ≤ 2 ^ 23 → s.fenced (i.tile.val / 24) = false →
      Answers (exec (.st i) s) (fun t =>
        OneLane (counted i 0x81 s) t i l { th with pc := pc + 8 } ∧
        (t.tile i.tile.val).scratch = Mem.setBytes x.scratch a data ∧
        (∀ b, b < a ∨ a + n ≤ b → Mem.byte (t.tile i.tile.val).scratch b = Mem.byte x.scratch b) ∧
        (t.tile i.tile.val).merge = x.merge ∧ (t.tile i.tile.val).l1 = x.l1)) ∧
    (∀ pa coh s1, a % n = 0 → wSpace w = 0 →
      translate (.tile i.tile) k.ctx.val a .store true (counted i 0x81 s) = (.ok pa coh, s1) →
      s1.eng.stalled = false → s1.thread? i.tile.val i.group l = some th → pa % n = 0 →
      ((∃ p, paKind pa = .hbm p) ∨ ∃ p, paKind pa = .host p) →
      ((s1.tile i.tile.val).mergeFind (pa / 256) ≠ none ∨ (s1.tile i.tile.val).merge.length < 8) →
      Answers (exec (.st i) s) (fun t =>
        OneLane s1 t i l { th with pc := pc + 8 } ∧
        (∃ d, (t.tile i.tile.val).forward pa n = .all d ∧ d.map (·.1) = data) ∧
        (t.tile i.tile.val).scratch = (s1.tile i.tile.val).scratch))

/-- For a thread that issues alone with no load outstanding on its tile and unmarked operands, at an aligned word of the own
scratchpad that carries no poison: DST receives the old word, the word becomes what the operation says over 32 or 64 bits, every other byte of the scratchpad
reads as before, and nothing else changes but, with FS a fence of die scope or wider on a tile that buffers no store, the L1, which that empties. A set of any
number of threads performs its atomics in the order of its lanes, each thread receiving what its own atomic found (R134). -/
def Obligations.AtomicsOnScratchpad : Prop :=
  let many : (Issue → Instr) → Nat → Prop := fun c opc =>
    ∀ s i r k g pc w th, IssuableSet s i opc r k g pc w th → (s.tile i.tile.val).fills = [] → wFs w = 0 → wSpace w = 1 →
      s.fenced (i.tile.val / 24) = false → (s.tile i.tile.val).spoison = [] →
      let n := 2 ^ wSize w
      let m := sizeRegs (wSize w)
      let a : Nat → Nat := fun l => memAddr w (th l)
      (∀ l ∈ guarded i w th, srcMarked w (th l) = false ∧ a l % n = 0 ∧ a l + n ≤ 2 ^ 23) →
      let step : Mem → Nat → Mem := fun x l =>
        let b := (th l).regsAt (wSb w) m
        let new := if opc = 0x84 then (th l).regsAt (wSb w + m) m else b
        Mem.setBytes x (a l) (toBytes (atomLeaves opc (wSx w) (BitVec.ofNat (8 * n) (ofBytes (Mem.bytes x (a l) n)))
          (BitVec.ofNat (8 * n) b) (BitVec.ofNat (8 * n) new)).toNat n)
      let before : Nat → Mem := fun l => ((guarded i w th).filter (· < l)).foldl step (s.tile i.tile.val).scratch
      Answers (exec (c i) s) (fun t =>
        t = { counted i opc s with tiles := t.tiles } ∧
        (t.tile i.tile.val).scratch = (guarded i w th).foldl step (s.tile i.tile.val).scratch ∧
        ∀ l, i.lanes.getLsbD l = true → t.thread? i.tile.val i.group l = some
          (if guardOf w (th l) then { (th l).setRegs (wDst w) (ofBytes (Mem.bytes (before l) (a l) n)) false m with pc := pc + 8 }
           else { th l with pc := pc + 8 }))
  let one : (Issue → Instr) → Nat → Prop := fun c opc =>
    ∀ s i r k g pc w l th, IssuableOne s i opc r k g pc w l th → (s.tile i.tile.val).fills = [] → srcMarked w th = false →
      (wFs w < 3 ∨ (s.tile i.tile.val).merge = []) → wSpace w = 1 →
      let n := 2 ^ wSize w
      let m := sizeRegs (wSize w)
      let a := memAddr w th
      let x := s.tile i.tile.val
      a % n = 0 → a + n ≤ 2 ^ 23 → s.fenced (i.tile.val / 24) = false →
      (∀ j, j < n → KeySet.has x.spoison ((a + j) / 8) = false) →
      let old := ofBytes (Mem.bytes x.scratch a n)
      let b := th.regsAt (wSb w) m
      let new := if opc = 0x84 then th.regsAt (wSb w + m) m else b
      let v := (atomLeaves opc (wSx w) (BitVec.ofNat (8 * n) old) (BitVec.ofNat (8 * n) b) (BitVec.ofNat (8 * n) new)).toNat
      Answers (exec (c i) s) (fun t =>
        OneLane (counted i opc s) t i l { th.setRegs (wDst w) old false m with pc := pc + 8 } ∧
        (t.tile i.tile.val).scratch = Mem.setBytes x.scratch a (toBytes v n) ∧
        (∀ q, q < a ∨ a + n ≤ q → Mem.byte (t.tile i.tile.val).scratch q = Mem.byte x.scratch q) ∧
        (t.tile i.tile.val).merge = x.merge ∧ (t.tile i.tile.val).l1 = (if wFs w < 3 then x.l1 else []))
  let both : (Issue → Instr) → Nat → Prop := fun c opc => one c opc ∧ many c opc
  both .atomAdd 0x82 ∧ both .atomSwap 0x83 ∧ both .atomCas 0x84 ∧ both .atomMin 0x85 ∧ both .atomMax 0x86

/-- For a thread that issues alone with no load outstanding on its tile and unmarked operands, at an aligned address that translates to
HBM and of whose granule no store is buffered: the word atomic is performed at the home near cache, DST receives its old value, the L1 no longer holds a
line with the address, no scratchpad and no buffered store changes, and the thread goes on. With FS a fence of die scope or wider the same holds after the
drain of the merging buffer, where no store is buffered then, and the L1 is empty after it. -/
def Obligations.AtomicsOnMemory : Prop :=
  let one : (Issue → Instr) → Nat → (Bool → AtomOp) → Prop := fun c opc op =>
    ∀ s i r k g pc w l th pa coh s1 p, IssuableOne s i opc r k g pc w l th → (s.tile i.tile.val).fills = [] →
      srcMarked w th = false → wSpace w = 0 → memAddr w th % 2 ^ wSize w = 0 →
      let f := fenceOp i.tile.val (wFs w) (counted i opc s)
      f.1.dies = 0 → f.2.issues i.tile.val = true → f.2.thread? i.tile.val i.group l = some th →
      translate (.tile i.tile) k.ctx.val (memAddr w th) .atomic true f.2 = (.ok pa coh, s1) →
      s1.runKernel i.tile.val = some k → paKind pa = .hbm p → (s1.tile i.tile.val).mergeFind (pa / 256) = none →
      let m := sizeRegs (wSize w)
      let b := th.regsAt (wSb w) m
      let at' := memAtom (threadPort s1 i.tile.val coh) (op (wSx w)) (wSize w == 3) pa (if opc = 0x84 then b else 0)
        (if opc = 0x84 then th.regsAt (wSb w + m) m else b) s1
      at'.1.met.dies = 0 → at'.2.eng.stalled = false → at'.2.thread? i.tile.val i.group l = some th →
      at'.2.issues i.tile.val = true → (wFs w < 3 ∨ (at'.2.tile i.tile.val).merge = []) →
      Answers (exec (c i) s) (fun t =>
        OneLane at'.2 t i l { th.setRegs (wDst w) at'.1.old at'.1.met.poison m with pc := pc + 8 } ∧
        (t.tile i.tile.val).l1Find (pa / 512) = none ∧ (3 ≤ wFs w → (t.tile i.tile.val).l1 = []) ∧
        (t.tile i.tile.val).scratch = (at'.2.tile i.tile.val).scratch ∧
        (t.tile i.tile.val).merge = (at'.2.tile i.tile.val).merge)
  one .atomAdd 0x82 (fun _ => .add) ∧ one .atomSwap 0x83 (fun _ => .swap) ∧ one .atomCas 0x84 (fun _ => .cas) ∧
  one .atomMin 0x85 (fun sx => if sx then .minS else .minU) ∧ one .atomMax 0x86 (fun sx => if sx then .maxS else .maxU)

/-- A FENCE of group or tile scope changes nothing but the PC; one of die scope or wider, whose drain meets no fenced die, leaves the merging buffer
and the L1 of its tile empty and the memory that the drain leaves. The drain of an entry of the merging buffer takes it out and leaves the memory that
writing its bytes leaves. The fill of the line of the one load that waits on a tile gives the load the line's bytes with their poison and leaves no load
waiting. -/
def Obligations.FencesDrainsAndFills : Prop :=
  (∀ s i r k g pc w l th, IssuableOne s i 0xB3 r k g pc w l th → (s.tile i.tile.val).fills = [] →
    (fld w 34 32 < 3 →
      Answers (exec (.fence i) s) (fun t => RegIssue s t i r pc w (fun _ x x' => x' = { x with pc := pc + 8 }))) ∧
    (3 ≤ fld w 34 32 → (drainAll i.tile.val (counted i 0xB3 s)).1.dies = 0 →
      (drainAll i.tile.val (counted i 0xB3 s)).2.eng.stalled = false →
      (drainAll i.tile.val (counted i 0xB3 s)).2.thread? i.tile.val i.group l = some th →
      (drainAll i.tile.val (counted i 0xB3 s)).2.issues i.tile.val = true →
      Answers (exec (.fence i) s) (fun t =>
        OneLane (drainAll i.tile.val (counted i 0xB3 s)).2 t i l { th with pc := pc + 8 } ∧
        (t.tile i.tile.val).l1 = [] ∧
        (t.tile i.tile.val).merge = ((drainAll i.tile.val (counted i 0xB3 s)).2.tile i.tile.val).merge))) ∧
  (∀ (s : State) (tile : TileId) (n : Nat) (e : MergeEntry), s.live = true → (s.tile tile.val).merge[n]? = some e →
    let d := drainEntry tile.val e (s.modTile tile.val (fun x => { x with merge := x.merge.eraseIdx n }))
    d.1.dies = 0 → d.2.eng.stalled = false →
    Answers (exec (.mergeBufferDrain tile n []) s) (fun t =>
      t.pool = d.2.pool ∧ t.hostMem = d.2.hostMem ∧ t.tiles = d.2.tiles)) ∧
  (∀ (s : State) (tile : TileId) (hw : List HostByte) (k : Kernel) (f : LoadFill) (th : Thread), s.live = true →
    s.runKernel tile.val = some k → (s.tile tile.val).fills = [f] → (s.tile tile.val).merge = [] →
    let m := memRead (threadPort (hostStores hw s) tile.val f.coh) (512 * (f.pa / 512)) 512 (hostStores hw s)
    m.1.met.dies = 0 → m.1.met.unreach = false → m.2.eng.stalled = false → m.2.thread? tile.val f.group f.lane = some th →
    (m.2.tile tile.val).fills = [f] → (m.2.tile tile.val).merge = [] →
    Answers (exec (.l1Fill tile 0 hw) s) (fun t =>
      (t.tile tile.val).fills = [] ∧ t.pool = m.2.pool ∧
      ∃ th', t.thread? tile.val f.group f.lane = some th' ∧ th'.pc = th.pc ∧
        th'.regs = (th.loadPut f.dst.toNat f.size f.sx
          ((List.range (2 ^ f.size)).map (fun q =>
            (((m.1.data.map (·.1)).getD (f.pa % 512 + q) 0),
              anyPoison ((m.1.data.drop (32 * ((f.pa % 512 + q) / 32))).take 32))))).regs ∧
        ∀ q, q < 64 → th'.busy.getLsbD q =
          (th.busy.getLsbD q && !decide (f.dst.toNat ≤ q ∧ q < f.dst.toNat + sizeRegs f.size))))

/-- From every issue set, also at the last instruction slot where every guard holds, BRA and CALL to PC + IMM32 jump in each thread whose guard holds, CALL writing PC + 8 to DST, where the target is a
multiple of 8 in 0 to 2²⁵ − 8; else, where some guard holds, the kernel aborts with ST_ILLEGAL. BRX of a thread that issues alone jumps to the unmarked g[SB], or aborts
so. Nothing else changes where they jump. -/
def Obligations.Branches : Prop :=
  (∀ s i r k g pc w, (Issuable s i 0xA0 r k g pc w ∨ Issuable s i 0xA2 r k g pc w) →
    let c : Issue → Instr := if wOpc w = 0xA0 then .bra else .call
    let x : Int := (pc : Int) + (BitVec.extractLsb' 32 32 w).toInt
    (x % 8 = 0 ∧ 0 ≤ x ∧ x ≤ 2 ^ 25 - 8 →
      (pc + 8 < pcEnd ∨ ∀ l th, i.lanes.getLsbD l = true → s.thread? i.tile.val i.group l = some th → guardOf w th = true) →
      Answers (exec (c i) s) (fun t => RegIssue s t i r pc w (fun _ th th' =>
        th' = { (if wOpc w = 0xA0 then th else th.putDst w (pc + 8) false) with pc := x.toNat }))) ∧
    (¬(x % 8 = 0 ∧ 0 ≤ x ∧ x ≤ 2 ^ 25 - 8) →
      (∃ l th, i.lanes.getLsbD l = true ∧ s.thread? i.tile.val i.group l = some th ∧ guardOf w th = true) →
      Answers (exec (c i) s) (fun t => AbortedOn t i.tile.val k .illegal 2))) ∧
  (∀ s i r k g pc w l th, IssuableAlone s i 0xA1 r k g pc w l th → th.marked (wSb w) = false →
    let x := (th.reg (wSb w)).toNat
    (x % 8 = 0 ∧ x ≤ 2 ^ 25 - 8 →
      Answers (exec (.brx i) s) (fun t => RegIssue s t i r pc w (fun _ th th' => th' = { th with pc := x }))) ∧
    (¬(x % 8 = 0 ∧ x ≤ 2 ^ 25 - 8) → Answers (exec (.brx i) s) (fun t => AbortedOn t i.tile.val k .illegal 2)))

/-- TRAP of an issue set in which some guard holds aborts its kernel with ST_ABORTED and the low 16 bits of IMM32 as DETAIL. The expiry of a group's watchdog, where
the live threads that have not arrived at its oldest wait do not hold it, aborts the kernel with ST_CONV_FAULT and records that wait in TGE_FAULT: its kind, the group, ARRIVED, EXPECTED,
the context and the PC. ARRIVED counts, at a group-wide instruction, the live threads of the group blocked at that PC; at BAR.G, those of the group at a BAR.G; at BAR.T, the threads of
the tile at that barrier. EXPECTED is the live threads of the group, or, at BAR.T, of all the kernel's groups on the tile. The tile stops issue. -/
def Obligations.TrapAbortsKernel : Prop :=
  (∀ s i r k g pc w, Issuable s i 0xA4 r k g pc w →
    (∃ l th, i.lanes.getLsbD l = true ∧ s.thread? i.tile.val i.group l = some th ∧ guardOf w th = true) →
    Answers (exec (.trap i) s) (fun t => AbortedOn t i.tile.val k .aborted ((w.extractLsb' 32 16).toNat))) ∧
  (∀ (s : State) (tile : TileId) (n : Nat) (r : Run) (k : Kernel) (g : Group) (o : Thread), s.live = true →
    (s.tile tile.val).run = some r → r.stopped = false → s.runKernel tile.val = some k → s.group? tile.val n = some g →
    oldestWait g.live = some o →
    (∀ e ∈ g.live, sameWait o e.2 = false → pausesWatch s tile.val n e = false) →
    let count : Group → (Thread → Bool) → Nat := fun h p => (h.threads.filter p).length
    let word : Nat → Nat → Nat → W64 := fun kind arrived expected =>
      BitVec.ofNat 64 (1 + 2 * kind + 16 * (g.num % 256) + 2 ^ 12 * min arrived 4095 + 2 ^ 24 * min expected 4095 +
        2 ^ 36 * k.ctx.val + 2 ^ 42 * (o.pc / 8))
    Answers (exec (.convWatchdogExpiry tile n) s) (fun t =>
      AbortedOn t tile.val k .convFault tile.val ∧
      (o.st = .atGroupWide → (t.tile tile.val).tgeFault =
        word 0 (count g (fun th => th.st == .atGroupWide && th.pc == o.pc)) (count g (fun th => th.st != .exited))) ∧
      (o.st = .barG → (t.tile tile.val).tgeFault =
        word 1 (count g (fun th => th.st == .barG)) (count g (fun th => th.st != .exited))) ∧
      (∀ b, o.st = .barT b → (t.tile tile.val).tgeFault =
        word 2 (r.groups.map (fun h => count h (fun th => th.st == .barT b))).sum (k.ngroup * k.width - r.exited))))

/-- EXIT ends the threads of its set whose guard holds and counts them; where another runnable thread of their group is left and no thread of the tile is at a BAR.T nothing else of the
tile's threads changes. The EXIT of one thread after which every live thread of its group is at a BAR.G releases them, and one after which as many threads are at a BAR.T as the live threads of all the
kernel's groups on the tile releases those. With no load outstanding on the tile, BAR.G blocks the threads of its set whose guard holds while some live thread of the group is neither of them nor at a BAR.G, and
as the last to arrive they release every live thread of the group to the instruction after its own; BAR.T b blocks a thread while fewer than the live threads of all the kernel's groups on the tile are there, and
the last to arrive releases them all. -/
def Obligations.BarriersAndExit : Prop :=
  (∀ s i r k g pc w th, IssuableSet s i 0xA3 r k g pc w th →
    (∃ j o, j ∉ guarded i w th ∧ g.threads[j]? = some o ∧ o.st = .runnable) →
    (∀ h ∈ r.groups, ∀ o ∈ h.threads, ∀ b, o.st ≠ .barT b) →
    Answers (exec (.exitT i) s) (fun t =>
      t = { counted i 0xA3 s with tiles := t.tiles } ∧
      (∀ l, i.lanes.getLsbD l = true → t.thread? i.tile.val i.group l =
        some (if guardOf w (th l) then { th l with st := .exited } else { th l with pc := pc + 8 })) ∧
      (∀ l, i.lanes.getLsbD l = false → t.thread? i.tile.val i.group l = s.thread? i.tile.val i.group l) ∧
      ∃ r', (t.tile i.tile.val).run = some r' ∧ r'.exited = r.exited + (guarded i w th).length)) ∧
  (∀ s i r k g pc w l th, IssuableAlone s i 0xA3 r k g pc w l th →
    -- the rest of the group is at a BAR.G
    ((∀ h ∈ r.groups, ∀ o ∈ h.threads, ∀ b, o.st ≠ .barT b) → (∃ j o, j ≠ l ∧ g.threads[j]? = some o ∧ o.st = .barG) →
      (∀ j o, j ≠ l → g.threads[j]? = some o → (o.st = .exited ∨ o.st = .barG) ∧ o.pc + 8 < pcEnd) →
      Answers (exec (.exitT i) s) (fun t =>
        t.thread? i.tile.val i.group l = some { th with st := .exited } ∧
        (∀ j o, j ≠ l → g.threads[j]? = some o → o.st = .barG →
          t.thread? i.tile.val i.group j = some { o with st := .runnable, pc := o.pc + 8 }) ∧
        t = { counted i 0xA3 s with tiles := t.tiles })) ∧
    -- the other threads that BAR.T b expects are all there
    (∀ b, (r.groups.map (fun h => (h.threads.filter (fun o => o.st == .barT b)).length)).sum = k.ngroup * k.width - (r.exited + 1) →
      (∃ j o, j ≠ l ∧ g.threads[j]? = some o ∧ o.st = .barT b) →
      (∀ h ∈ r.groups, ∀ o ∈ h.threads, (∀ c, o.st = .barT c → c = b) ∧ o.pc + 8 < pcEnd) → (r.groups.map (·.num)).Nodup →
      Answers (exec (.exitT i) s) (fun t =>
        t.thread? i.tile.val i.group l = some { th with st := .exited } ∧
        (∀ h ∈ r.groups, ∀ j o, h.threads[j]? = some o → o.st = .barT b →
          t.thread? i.tile.val h.num j = some { o with st := .runnable, pc := o.pc + 8 }) ∧
        t = { counted i 0xA3 s with tiles := t.tiles }))) ∧
  (∀ s i r k g pc w th, IssuableSet s i 0xA5 r k g pc w th → (s.tile i.tile.val).fills = [] →
    ((∃ j o, j ∉ guarded i w th ∧ g.threads[j]? = some o ∧ o.st ≠ .exited ∧ o.st ≠ .barG) →
      Answers (exec (.barG i) s) (fun t =>
        t = { counted i 0xA5 s with tiles := t.tiles } ∧
        (∀ l, i.lanes.getLsbD l = true → t.thread? i.tile.val i.group l =
          some (if guardOf w (th l) then { th l with st := .barG, since := r.arrivals } else { th l with pc := pc + 8 })) ∧
        (∀ l, i.lanes.getLsbD l = false → t.thread? i.tile.val i.group l = s.thread? i.tile.val i.group l))) ∧
    (guarded i w th ≠ [] →
      (∀ j o, j ∉ guarded i w th → g.threads[j]? = some o → (o.st = .exited ∨ o.st = .barG) ∧ o.pc + 8 < pcEnd) →
      Answers (exec (.barG i) s) (fun t =>
        (∀ j o, j ∉ guarded i w th → g.threads[j]? = some o → o.st = .barG →
          t.thread? i.tile.val i.group j = some { o with st := .runnable, pc := o.pc + 8 }) ∧
        (∀ l ∈ guarded i w th,
          t.thread? i.tile.val i.group l = some { th l with st := .runnable, since := r.arrivals, pc := pc + 8 }) ∧
        t = { counted i 0xA5 s with tiles := t.tiles }))) ∧
  (∀ s i r k g pc w l th, IssuableOne s i 0xA6 r k g pc w l th → (s.tile i.tile.val).fills = [] →
    let b : Fin 8 := Fin.ofNat 8 ((w.extractLsb' 32 3).toNat)
    let there := (r.groups.map (fun h => (h.threads.filter (fun o => o.st == .barT b)).length)).sum
    (r.groups.map (·.num)).Nodup →
    (there + 1 < k.ngroup * k.width - r.exited →
      Answers (exec (.barT i) s) (fun t => OneLane (counted i 0xA6 s) t i l { th with st := .barT b, since := r.arrivals })) ∧
    (there + 1 = k.ngroup * k.width - r.exited → (∀ h ∈ r.groups, ∀ o ∈ h.threads, o.st = .barT b → o.pc + 8 < pcEnd) →
      Answers (exec (.barT i) s) (fun t =>
        (∀ h ∈ r.groups, ∀ j o, h.threads[j]? = some o → o.st = .barT b →
          t.thread? i.tile.val h.num j = some { o with st := .runnable, pc := o.pc + 8 }) ∧
        t.thread? i.tile.val i.group l = some { th with st := .runnable, since := r.arrivals, pc := pc + 8 } ∧
        t = { counted i 0xA6 s with tiles := t.tiles })))

/-- Threads that reach a group-wide instruction while another live thread of their group is elsewhere block there. When all the live threads of a group have reached it, as one issue set or
blocked before, R132 chooses the group, the guard holds in each, no load is outstanding on the tile, the descriptor address in the
lowest live thread is unmarked, aligned and inside the scratchpad, the descriptor carries no poison and passes its checks, and the engine's queue has room, the operation that the
descriptor describes, WSLOT ignored in a context of legacy saturation mode, enters the queue once and every live thread goes on; with a full queue the threads block and the descriptor's copy is
kept. -/
def Obligations.GroupWideInstructions : Prop :=
  let queued : (Issue → Instr) → Nat → (Kernel → List Byte → BitVec 8 → Tile → Tile → Prop) → Prop := fun c opc P =>
    (∀ s i r k g pc w, IssueSet s i opc r k g pc w → (s.tile i.tile.val).fills = [] →
      (∃ j o, i.lanes.getLsbD j = false ∧ g.threads[j]? = some o ∧ o.st ≠ .exited ∧ (o.st ≠ .atGroupWide ∨ o.pc ≠ pc)) →
      Answers (exec (c i) s) (fun t =>
        t = { s with tiles := t.tiles } ∧
        (∀ l o, g.threads[l]? = some o → i.lanes.getLsbD l = true →
          t.thread? i.tile.val i.group l = some { o with st := .atGroupWide, since := r.arrivals }) ∧
        (∀ l, i.lanes.getLsbD l = false → t.thread? i.tile.val i.group l = s.thread? i.tile.val i.group l))) ∧
    ∀ s i r k g pc w first th x, (Issuable s i opc r k g pc w ∨ Gathered s i opc r k g pc w) → pc + 8 < pcEnd →
      (s.tile i.tile.val).fills = [] →
      (∀ l o, g.threads[l]? = some o → (i.lanes.getLsbD l = true ↔ o.st ≠ .exited)) → g.threads.length ≤ 64 →
      (∀ l o, g.threads[l]? = some o → i.lanes.getLsbD l = true → guardOf w o = true) →
      i.lanes.getLsbD first = true → (∀ l, l < first → i.lanes.getLsbD l = false) → g.threads[first]? = some th →
      let size := if opc < 0xC2 then 128 else 64
      let off := (th.reg (wSa w)).toNat
      let d := spadBytes (s.tile i.tile.val) off size
      th.marked (wSa w) = false → off % size = 0 → off + size ≤ spadEnd → anyPoison d = false →
      (issueBy opc k (plain d) s.glb.drvAccept (mxArray (s.tile i.tile.val) (plain d)) (s.tile i.tile.val) = .queued x →
        Answers (exec (c i) s) (fun t =>
          P k (plain d) s.glb.drvAccept (s.tile i.tile.val) x ∧
          (t.tile i.tile.val).arr0 = x.arr0 ∧ (t.tile i.tile.val).arr1 = x.arr1 ∧ (t.tile i.tile.val).vx = x.vx ∧
          (t.tile i.tile.val).dx = x.dx ∧ (t.tile i.tile.val).scratch = (s.tile i.tile.val).scratch ∧
          ∀ l o, g.threads[l]? = some o → i.lanes.getLsbD l = true → ∃ n,
            t.thread? i.tile.val i.group l = some { o with st := .runnable, since := n, pc := pc + 8 })) ∧
      (issueBy opc k (plain d) s.glb.drvAccept (mxArray (s.tile i.tile.val) (plain d)) (s.tile i.tile.val) = .full →
        Answers (exec (c i) s) (fun t =>
          (t.tile i.tile.val).arr0 = (s.tile i.tile.val).arr0 ∧ (t.tile i.tile.val).arr1 = (s.tile i.tile.val).arr1 ∧
          (t.tile i.tile.val).vx = (s.tile i.tile.val).vx ∧ (t.tile i.tile.val).dx = (s.tile i.tile.val).dx ∧
          (∃ r' h, (t.tile i.tile.val).run = some r' ∧ h ∈ r'.wide ∧ h.group = i.group ∧ h.pc = pc ∧ h.desc = plain d) ∧
          ∀ l o, g.threads[l]? = some o → i.lanes.getLsbD l = true → ∃ n,
            t.thread? i.tile.val i.group l = some { o with st := .queueFull, since := n, pc := pc }))
  queued .mxRun 0xC0 (fun k d f x x' =>
    let o := mxOpOf k (nextUid x) d
    let q := { o with held := o.listRanges.map (fun e => (e.1, spadBytes x e.1 e.2)) }
    firstBad (mxChecks d (mxOpOf k (nextUid x) d) f) = none ∧
    ((x'.arr0 = { x.arr0 with queue := x.arr0.queue ++ [q] } ∧ x.arr0.queue.length < 4 ∧ x' = { x with arr0 := x'.arr0 }) ∨
     (x'.arr1 = { x.arr1 with queue := x.arr1.queue ++ [q] } ∧ x.arr1.queue.length < 4 ∧ x' = { x with arr1 := x'.arr1 }))) ∧
  queued .vxRun 0xC1 (fun k d f x x' => firstBad (vxChecks d (vxOpOf k d) f) = none ∧ x.vx.length < 4 ∧
    x' = { x with vx := x.vx ++ [vxOpOf k d] }) ∧
  queued .dxCopy 0xC2 (fun k d _ x x' => firstBad (dxChecks d (dxFields k.kid .copy d)) = none ∧ x.dx.length < 8 ∧
    x' = { x with dx := x.dx ++ [dxFields k.kid .copy d] }) ∧
  queued .dxFill 0xC3 (fun k d _ x x' => firstBad (dxChecks d (dxFields k.kid .fill d)) = none ∧ x.dx.length < 8 ∧
    x' = { x with dx := x.dx ++ [dxFields k.kid .fill d] }) ∧
  queued .dxRed 0xC4 (fun k d _ x x' => firstBad (dxChecks d (dxFields k.kid .red d)) = none ∧ x.dx.length < 8 ∧
    x' = { x with dx := x.dx ++ [dxFields k.kid .red d] })

/-- For a thread that issues alone with no load outstanding on its tile and unmarked operands that name an object of this module: SIG and SIG.I drain the merging buffer and, where
the lookup gives an object, send it one signal of g[SB] or IMM32, and the thread goes on; the threads of a larger set, where no store is buffered and each lookup finds its entry on the die, send theirs in the order of
their lanes; WAITS blocks the thread at its PC while
(value − g[SB]) as a signed number is below zero, and else, with a free wait record and no die in test mode on the way (R21), gives the value in DST and 1 in p[P], empties the L1 and goes on. A WAITS with a
limit that is reached gives 0 in p[P], leaves every register, and the thread goes on. -/
def Obligations.SignalsAndWaitsOfThreads : Prop :=
  let sends : (Issue → Instr) → Nat → (W64 → Thread → W32) → Prop := fun c opc inc =>
    ∀ s i r k g pc w l th vid p s2, IssuableOne s i opc r k g pc w l th → (s.tile i.tile.val).fills = [] →
      srcMarked w th = false → th.pair (wSa w) = vid → vid < 2 ^ 20 →
      let s1 := drainAll i.tile.val (counted i opc s)
      s1.1.dies = 0 → objLookup (1 + i.tile.val / 24) k.ctx.val vid .signal s1.2 = (.ok p, s2) →
      s2.eng.stalled = false → s2.thread? i.tile.val i.group l = some th → s2.issues i.tile.val = true →
      Answers (exec (c i) s) (fun t =>
        t = { s2 with sync := { s2.sync with sigs := s2.sync.sigs ++ [⟨p, inc w th, some (Fin.ofNat 4 (i.tile.val / 24))⟩] }, tiles := t.tiles } ∧
        t.thread? i.tile.val i.group l = some { th with pc := pc + 8 })
  let many : (Issue → Instr) → Nat → (W64 → Thread → W32) → Prop := fun c opc inc =>
    ∀ s i r k g pc w th (p : Nat → Nat), IssuableSet s i opc r k g pc w th → (s.tile i.tile.val).fills = [] →
      (s.tile i.tile.val).merge = [] →
      (∀ l ∈ guarded i w th, srcMarked w (th l) = false ∧ (th l).pair (wSa w) < 2 ^ 20 ∧
        CachedObj s (1 + i.tile.val / 24) k.ctx.val ((th l).pair (wSa w)) .signal (p l)) →
      Answers (exec (c i) s) (fun t =>
        t = { counted i opc s with
          sync := { s.sync with
            sigs := s.sync.sigs ++ (guarded i w th).map (fun l => ⟨p l, inc w (th l), some (Fin.ofNat 4 (i.tile.val / 24))⟩) }
          tiles := t.tiles } ∧
        ∀ l, i.lanes.getLsbD l = true → t.thread? i.tile.val i.group l = some { th l with pc := pc + 8 })
  sends .sig 0xB0 (fun w th => th.reg (wSb w)) ∧ sends .sigI 0xB1 (fun w _ => w.extractLsb' 32 32) ∧
  many .sig 0xB0 (fun w th => th.reg (wSb w)) ∧ many .sigI 0xB1 (fun w _ => w.extractLsb' 32 32) ∧
  (∀ s i r k g pc w l th vid p s2, IssuableOne s i 0xB2 r k g pc w l th → srcMarked w th = false →
    th.pair (wSa w) = vid → vid < 2 ^ 20 →
    objLookup (1 + i.tile.val / 24) k.ctx.val vid .wait (counted i 0xB2 s) = (.ok p, s2) →
    s2.eng.stalled = false → s2.thread? i.tile.val i.group l = some th → s2.fenced (p / 4096) = false →
    ((s2.obj p - th.reg (wSb w)).toInt < 0 →
      Answers (exec (.waits i) s) (fun t => ∃ wt, t.thread? i.tile.val i.group l = some { th with st := .waiting wt } ∧
        wt.phys = p ∧ wt.target = th.reg (wSb w) ∧ wt.dst.toNat = wDst w ∧ wt.p.toNat = wP w ∧
        (wt.timed = true ↔ wMod w ≠ 0))) ∧
    (0 ≤ (s2.obj p - th.reg (wSb w)).toInt → (s2.tile i.tile.val).waits = [] → s2.parted (some (i.tile.val / 24)) (p / 4096) = false →
      Answers (exec (.waits i) s) (fun t =>
        t.thread? i.tile.val i.group l =
          some { (th.setReg (wDst w) (s2.obj p) false).putPred (wP w) true false with st := .runnable, pc := pc + 8 } ∧
        (t.tile i.tile.val).l1 = []))) ∧
  (∀ (s : State) (tile : TileId) (g : Nat) (l : Fin 64) (th : Thread) (wt : ThreadWait), s.live = true →
    s.thread? tile.val g l.val = some th → th.st = .waiting wt → wt.timed = true →
    Answers (exec (.waitsTimeout tile g l) s) (fun t =>
      (∃ th', t.thread? tile.val g l.val = some th' ∧ th'.st = .runnable ∧ th'.pc = th.pc + 8 ∧ th'.regs = th.regs ∧
        th' = { th.putPred wt.p.toNat false false with st := .runnable, pc := th.pc + 8 }) ∧
      (t.tile tile.val).l1 = (s.tile tile.val).l1))

/-- On a free tile of a die in service a waiting kernel starts: its first groups are resident, every thread at the entry point with every register and predicate 0,
the L1 and the instruction cache empty, and the scratchpad zero where the tile last ran another context; nothing else changes but the record of the launch in the negative of its die. A running kernel with room admits its next group the same way. A tile whose
kernel has aborted elsewhere stops issue. A kernel whose threads are done, whose engines are idle and whose buffer is empty leaves the tile. -/
def Obligations.KernelLifeOnATile : Prop :=
  (∀ (s : State) (tile : TileId) (k : Kernel) (rest : List Nat), s.live = true → (s.tile tile.val).run = none →
    (s.tile tile.val).waiting = k.kid :: rest → s.kernel? k.kid = some k → s.glb.tileBusy = none →
    s.fenced (tile.val / 24) = false → s.withdrawn tile.val = false →
    (s.ctx k.ctx.val).preempt = none → (s.ctx k.ctx.val).state = .active → s.parted none (tile.val / 24) = false →
    Answers (exec (.kernelStart tile) s) (fun t =>
      (∃ r, (t.tile tile.val).run = some r ∧ r.kid = k.kid ∧ r.stopped = false ∧ r.icache = [] ∧ r.exited = 0 ∧
        r.groups.length = min (min (2048 / k.width) (98304 / (k.nregs * k.width))) k.ngroup ∧
        ∀ (n : Nat) (g : Group), r.groups[n]? = some g → g.num = n ∧ g.threads = List.replicate k.width {}) ∧
      (t.tile tile.val).l1 = [] ∧ (t.tile tile.val).lfsr = 0xACE1 ∧
      ((s.tile tile.val).lastCtx ≠ some (64 * k.gen + k.ctx.val) → (t.tile tile.val).scratch = [] ∧
        (t.tile tile.val).spoison = [] ∧ (t.tile tile.val).written = 0) ∧
      ((s.tile tile.val).lastCtx = some (64 * k.gen + k.ctx.val) → (t.tile tile.val).scratch = (s.tile tile.val).scratch) ∧
      (∃ k', t.kernel? k.kid = some k' ∧ k'.live.getLsbD tile.val = true ∧ k'.todo.getLsbD tile.val = false) ∧
      t = { s with tiles := t.tiles, kernels := t.kernels, dies := t.dies } ∧ ∀ u, u ≠ tile.val → t.tile u = s.tile u)) ∧
  (∀ (s : State) (tile : TileId) (r : Run) (k : Kernel), s.live = true → (s.tile tile.val).run = some r → s.kernel? r.kid = some k →
    r.stopped = false → r.next < k.ngroup → r.groups.length < min (2048 / k.width) (98304 / (k.nregs * k.width)) →
    exec (.groupAdmit tile) s = .next (s.modTile tile.val (fun x => { x with
      run := some { r with groups := r.groups ++ [⟨r.next, List.replicate k.width {}⟩], next := r.next + 1 } }))) ∧
  (∀ (s : State) (tile : TileId) (r : Run) (k : Kernel), s.live = true → (s.tile tile.val).run = some r → s.kernel? r.kid = some k →
    k.abort.isSome = true → (s.tile tile.val).merge = [] →
    Answers (exec (.kernelAbortRemoteStop tile) s) (fun t => t.issues tile.val = false ∧
      (r.stopped = false → (t.tile tile.val).fills = [] ∧ (t.tile tile.val).waits = []) ∧ t.pool = s.pool ∧ t.kernels = s.kernels)) ∧
  (∀ (s : State) (tile : TileId) (r : Run) (k : Kernel), s.live = true → (s.tile tile.val).run = some r → s.kernel? r.kid = some k →
    r.groups = [] → k.ngroup ≤ r.next → (s.tile tile.val).enginesIdle = true → (s.tile tile.val).fills = [] →
    (s.tile tile.val).merge = [] → s.glb.tileBusy = none → s.glb.ctxBusy = none → (∀ e ∈ s.ctxs, e.2.preempt = none) → Sparse.wf ({} : Tile) s.tiles = true →
    (k.live &&& ~~~ (BitVec.ofNat 96 (2 ^ tile.val))) ≠ 0 →
    Answers (exec (.kernelEnd tile) s) (fun t => (t.tile tile.val).run = none ∧ t.pool = s.pool ∧
      (t.tile tile.val).scratch = (s.tile tile.val).scratch ∧
      ∃ k', t.kernel? k.kid = some k' ∧ k'.live = k.live &&& ~~~ (BitVec.ofNat 96 (2 ^ tile.val))))

/-- The operation at the head of the queue of an idle array whose ranges meet no earlier operation's C region starts, and where no group is stalled on a full queue nothing else changes. The oldest executing operation of either array whose
lists, tags, table and outliers pass their checks completes: it leaves the array, sends its signal, where it has one and the object is found, no other tile and no memory changes, and, where C is no list of tile
bases, every byte of the scratchpad outside its C region and tag array reads as before. So it does, without a fault, where a write has met its lists or tags (the model's reading, LOG 117 and 115). One that fails a
check aborts the kernel; results already written stand (LOG 114), and, where C is no list, every byte outside its C region and tag array reads as before.
For any addend and rows of integers, the accumulator takes the exact sum of the products where it lies within ±(2⁴⁷ − 1), without a
saturation, and else the nearer end of that range, with one. -/
def Obligations.MatrixOperations : Prop :=
  ((∀ (s : State) (tile : TileId) (o : MxOp) (q : List MxOp), s.live = true →
    (∀ r, (s.tile tile.val).run = some r → r.wide = []) →
    ((s.tile tile.val).arr0.queue = o :: q → (s.tile tile.val).arr0.exec = [] → interlockOpen (s.tile tile.val) o = true →
      exec (.mxOpStart tile 0) s = .next (s.modTile tile.val (fun x => { x with arr0 := { x.arr0 with queue := q, exec := [o] } }))) ∧
    ((s.tile tile.val).arr1.queue = o :: q → (s.tile tile.val).arr1.exec = [] → interlockOpen (s.tile tile.val) o = true →
      exec (.mxOpStart tile 1) s = .next (s.modTile tile.val (fun x => { x with arr1 := { x.arr1 with queue := q, exec := [o] } })))) ∧
  (∀ (s : State) (tile : TileId) (a : Fin 2) (o : MxOp) (rest : List MxOp) (r : Run) (k : Kernel) (p : Nat), s.live = true →
    (s.tile tile.val).run = some r → s.kernel? r.kid = some k →
    let u := (s.tile tile.val).array a.val
    u.exec = o :: rest →
    let x := (s.tile tile.val).putArray a.val { u with exec := rest }
    let ended : State → Prop := fun t =>
      ((t.tile tile.val).array a.val).exec.length = rest.length ∧
      ((t.tile tile.val).array (1 - a.val)).exec.length = ((s.tile tile.val).array (1 - a.val)).exec.length ∧
      t.pool = s.pool ∧ t.hostMem = s.hostMem ∧ (∀ v, v ≠ tile.val → t.tile v = s.tile v) ∧
      t.sync.sigs = s.sync.sigs ++ sigSent tile o.sig p ∧ ∃ k', t.kernel? k.kid = some k' ∧ k'.abort = k.abort
    let outside : State → Prop := fun t =>
      o.c.list = false → ∀ q, (∀ e ∈ cRanges x o, q < e.1 ∨ e.1 + e.2 ≤ q) →
        Mem.byte (t.tile tile.val).scratch q = Mem.byte (s.tile tile.val).scratch q
    (firstBad (mxRunChecks x o) = none → SigReady s tile k.ctx.val o.sig p →
      Answers (exec (.mxOpComplete tile a []) s) (fun t => ended t ∧ outside t)) ∧
    (listsHit o = true → SigReady s tile k.ctx.val o.sig p → Answers (exec (.mxOpComplete tile a []) s) ended) ∧
    (∀ b, listsHit o = false → firstBad (mxRunChecks x o) = some b → (s.tile tile.val).merge = [] →
      Answers (exec (.mxOpComplete tile a []) s) (fun t => AbortedOn t tile.val k b.1 b.2 ∧ outside t ∧
        t.pool = s.pool ∧ t.hostMem = s.hostMem ∧ (∀ v, v ≠ tile.val → (t.tile v).scratch = (s.tile v).scratch))))) ∧
  (∀ (c : Int) (l : List (Int × Int)),
    let sum := c + (l.map (fun e => e.1 * e.2)).sum
    intAcc c (l.map (fun e => XR.int e.1)) (l.map (fun e => XR.int e.2)) =
      (if sum < -(2 ^ 47 - 1) then (-(2 ^ 47 - 1), true) else if 2 ^ 47 - 1 < sum then (2 ^ 47 - 1, true) else (sum, false)))

/-- The head operation of a tile's vector engine that has not run, with an untagged fp32 destination, no reduction and rounding to nearest or toward zero, runs: element i of the
destination becomes the rounded result of element i of the sources (for the arithmetic, comparison and selection operations, CVT and QNT the one that R113 and R114 give; for a transcendental at
a special operand the value that R116 gives), every other byte of the scratchpad reads as before, and no other tile and no memory changes. -/
def Obligations.VectorOperations : Prop :=
  let runs : (TileId → Instr) → (Nat → Bool) → Prop := fun c kind =>
    ∀ (s : State) (tile : TileId) (o : VxOp) (rest : List VxOp) (r : Run) (k : Kernel), s.live = true →
      (s.tile tile.val).run = some r → s.kernel? r.kid = some k → (s.tile tile.val).vx = o :: rest →
      kind o.op = true → o.ran = false → o.dstFmt = 0x0E → o.dstTag = none → o.red = 0 → 0 < o.count →
      (rndOf k o.rnd = 0 ∨ rndOf k o.rnd = 1) →
      let x := s.tile tile.val
      let n := vxSources o.op
      let A := srcValues s x o.count o.src0
      let B := srcValues s x o.count (if 1 < n then o.src1 else .none)
      let C := srcValues s x o.count (if 2 < n then o.src2 else .none)
      let rnd : Round := if rndOf k o.rnd = 0 then .near else .zero
      Answers (exec (c tile) s) (fun t => ∃ res : List Nat, res.length = o.count ∧
        (t.tile tile.val).scratch = Mem.setBytes x.scratch o.dstBase (res.flatMap (fun v => toBytes v 4)) ∧
        (∀ a, a < o.dstBase ∨ o.dstBase + 4 * o.count ≤ a → Mem.byte (t.tile tile.val).scratch a = Mem.byte x.scratch a) ∧
        (t.tile tile.val).vx.length = (s.tile tile.val).vx.length ∧ ((t.tile tile.val).vx[0]?).map (·.ran) = some true ∧
        t.pool = s.pool ∧ t.hostMem = s.hostMem ∧ (∀ u, u ≠ tile.val → t.tile u = s.tile u) ∧
        ∀ (j v : Nat) (a b d : XR × Bool), res[j]? = some v → A[j]? = some a → B[j]? = some b → C[j]? = some d →
          let is : XR → Prop := fun y => v = (encodeElem 0x0E rnd y).1
          (o.op = 0x00 → is (a.1.add b.1)) ∧ (o.op = 0x01 → is (a.1.add b.1.neg)) ∧ (o.op = 0x02 → is (a.1.mul b.1)) ∧
          (o.op = 0x03 ∨ o.op = 0x13 → is ((a.1.mul b.1).add d.1)) ∧
          (o.op = 0x04 ∧ a.1.isNan = false ∧ b.1.isNan = false → is (if b.1.lt a.1 then b.1 else a.1)) ∧
          (o.op = 0x05 ∧ a.1.isNan = false ∧ b.1.isNan = false → is (if a.1.lt b.1 then b.1 else a.1)) ∧
          (o.op = 0x06 → is a.1.abs) ∧ (o.op = 0x07 → is a.1.neg) ∧
          (o.op = 0x08 → is (if a.1.eqv b.1 then .one else .zero)) ∧ (o.op = 0x09 → is (if a.1.eqv b.1 then .zero else .one)) ∧
          (o.op = 0x0A → is (if a.1.lt b.1 then .one else .zero)) ∧ (o.op = 0x0B → is (if a.1.le b.1 then .one else .zero)) ∧
          (o.op = 0x0C → is (if d.1.isZero then b.1 else a.1)) ∧ (o.op = 0x12 → is a.1) ∧
          (∀ g y, fnOf o.op = some g → g.special a.1 = some y → o.wide = false → is y))
  runs (.vxBasicOp · []) (fun op => decide (op ≤ 0x11)) ∧ runs (.vxCvt · []) (fun op => op == 0x12) ∧ runs (.vxQnt · []) (fun op => op == 0x13) ∧
  runs (.vxTranscendental · []) vxSlow

/-- The head operation of a tile's vector engine that is an UPDATE and has not run completes its run in every state of a running module. With GATE not 0 in an unpoisoned parameter block it writes
nothing. With GATE 0, fp32 moments, a copy W16 in whole bytes, no W8 and rounding of W and W16 to nearest: the master W, the moments (ADAMW's V too) and W16 are written one after the other, with the values of R122 in
every element (each step rounded to fp32, and W and W16 from the exact difference with the rounded product: the model's reading of R122, LOG 110); every other byte of the scratchpad, the other tiles and memory stay. -/
def Obligations.OptimiserUpdates : Prop :=
  let f := fun (x : XR) => toF f32 x
  let upd : (TileId → Instr) → Bool → Prop := fun c adam =>
    ∀ (s : State) (tile : TileId) (o : VxOp) (rest : List VxOp) (r : Run) (k : Kernel), s.live = true →
      (s.tile tile.val).run = some r → s.kernel? r.kid = some k → (s.tile tile.val).vx = o :: rest →
      o.op = (if adam then 0x40 else 0x41) → o.ran = false →
      let x := s.tile tile.val
      let pb := spadBytes x o.param 64
      let P : Nat → XR := fun off => decodeFloat f32 (leAt (plain pb) off 4)
      Answers (exec (c tile) s) (fun t => ((t.tile tile.val).vx[0]?).map (·.ran) = some true ∧ t.pool = s.pool ∧ t.hostMem = s.hostMem) ∧
      (anyPoison pb = false → leAt (plain pb) 36 4 ≠ 0 →
        Answers (exec (c tile) s) (fun t => (t.tile tile.val).scratch = x.scratch ∧ (t.tile tile.val).spoison = x.spoison ∧
          ∀ u, u ≠ tile.val → t.tile u = s.tile u)) ∧
      (∀ b1 b2 : Nat, anyPoison pb = false → leAt (plain pb) 36 4 = 0 → o.w8Present = false → o.dstTag = none →
        o.src1 = .stream b1 0x0E → (adam = true → o.src2 = .stream b2 0x0E) → isMx o.dstFmt = false → fmtBits o.dstFmt % 8 = 0 →
        rndOf k o.rnd = 0 → rndOf k o.rnd16 = 0 → 0 < o.count →
        let W := valuesAt x o.updW 0x0E o.count
        let G := srcValues s x o.count o.src0
        let M := srcValues s x o.count o.src1
        let V := srcValues s x o.count o.src2
        let n := fmtBits o.dstFmt / 8
        Answers (exec (c tile) s) (fun t => ∃ ws ms vs cs : List Nat,
          ws.length = o.count ∧ ms.length = o.count ∧ vs.length = o.count ∧ cs.length = o.count ∧
          (t.tile tile.val).scratch =
            Mem.setBytes (Mem.setBytes (Mem.setBytes (Mem.setBytes x.scratch o.updW (ws.flatMap (fun v => toBytes v 4))) b1
              (ms.flatMap (fun v => toBytes v 4))) b2 (if adam then vs.flatMap (fun v => toBytes v 4) else []))
              o.dstBase (cs.flatMap (fun v => toBytes v n)) ∧
          (∀ u, u ≠ tile.val → t.tile u = s.tile u) ∧
          ∀ j, j < o.count →
            let w0 := (W.getD j (.zero, false)).1
            let m0 := (M.getD j (.zero, false)).1
            let v0 := (V.getD j (.zero, false)).1
            let g := f ((G.getD j (.zero, false)).1.mul (P 28))
            let m' := if adam then f ((f ((P 4).mul m0)).add (f ((f (XR.one.sub (P 4))).mul g))) else f ((f ((P 4).mul m0)).add g)
            let v' := f ((f ((P 8).mul v0)).add (f ((f ((f (XR.one.sub (P 8))).mul g)).mul g)))
            let den := f ((f (f (v'.mul (P 24))).sqrt).add (P 12))
            let u := if adam then f ((f ((f (m'.mul (P 20))).div den)).add (f ((P 16).mul w0)))
              else f ((if o.nesterov then f (g.add (f ((P 4).mul m'))) else m').add (f ((P 16).mul w0)))
            let w' := w0.sub (f ((P 0).mul u))
            ms.getD j 0 = (encodeElem 0x0E .near m').1 ∧ (adam = true → vs.getD j 0 = (encodeElem 0x0E .near v').1) ∧
            ws.getD j 0 = (encodeElem 0x0E .near w').1 ∧ cs.getD j 0 = (encodeElem o.dstFmt .near w').1))
  upd (.updateAdamw · []) true ∧ upd (.updateSgdm · []) false

/-- The head vector operation that has run and writes no record and no tag leaves the queue and sends its signal, where it has one and the object is found, and the scratchpad stays. With fewer than four DX operations running the first that waits starts. A running DX
operation leaves the queue and sends its signal so: a DX.FILL of one row inside the own scratchpad leaves the pattern repeated in its row, a DX.COPY of one row from one place of the own scratchpad to another that does not meet it
leaves the source's bytes there, every other byte of the scratchpad as before; a DX.COPY or DX.RED of one row from the own scratchpad to one page of memory leaves the memory that writing, or reducing, the row there leaves. A DX operation whose one row
does not translate aborts the kernel with ST_XLATE_FAULT. A thread blocked without a wait record takes a free one where its
object has not reached its target: tile and object hold the wait, and the thread stays blocked. -/
def Obligations.EngineCompletions : Prop :=
  (∀ (s : State) (tile : TileId) (o : VxOp) (rest : List VxOp) (r : Run) (k : Kernel) (p : Nat), s.live = true →
    (s.tile tile.val).run = some r → s.kernel? r.kid = some k → r.wide = [] →
    (s.tile tile.val).vx = o :: rest → o.ran = true → o.recs = [] → o.tags = [] → o.hits = [] → SigReady s tile k.ctx.val o.sig p →
    let t := (s.modTile tile.val (fun x => { x with vx := rest })).took
    exec (.vxOpComplete tile) s = .next { t with sync := { t.sync with sigs := t.sync.sigs ++ sigSent tile o.sig p } }) ∧
  (∀ (s : State) (tile : TileId) (a b : List DxOp) (o : DxOp), s.live = true → (s.tile tile.val).dx = a ++ o :: b →
    (∀ e ∈ a, e.running = true) → o.running = false → (a ++ b).countP (·.running) < 4 →
    exec (.dxOpStart tile) s =
      .next (s.modTile tile.val (fun x => { x with dx := a ++ { o with running := true } :: b }))) ∧
  (∀ (s : State) (tile : TileId) (o : DxOp) (rest : List DxOp) (r : Run) (k : Kernel) (p : Nat), s.live = true →
    (s.tile tile.val).run = some r → s.kernel? r.kid = some k → r.wide = [] → r.stopped = false →
    (s.tile tile.val).dx = o :: rest → o.running = true → o.count1 = 1 → o.count2 = 1 → SigReady s tile k.ctx.val o.sig p →
    (s.tile tile.val).merge = [] → 0 < o.len0 → s.fenced (tile.val / 24) = false →
    let x := s.tile tile.val
    let ended : State → Prop := fun t => (t.tile tile.val).dx = rest ∧ t.sync.sigs = s.sync.sigs ++ sigSent tile o.sig p
    let rest' : State → Prop := fun t => t.pool = s.pool ∧ ∀ a, a < o.dst.toNat ∨ o.dst.toNat + o.len0 ≤ a →
      Mem.byte (t.tile tile.val).scratch a = Mem.byte x.scratch a
    (o.kind = .fill → o.dsp = true → o.dst.toNat + o.len0 ≤ 2 ^ 23 →
      Answers (exec (.dxOpComplete tile 0 [] []) s) (fun t => ended t ∧ rest' t ∧
        (Memory.wf x.scratch = true → ∀ j, j < o.len0 →
          Mem.byte (t.tile tile.val).scratch (o.dst.toNat + j) = o.src.extractLsb' (8 * (j % 8)) 8))) ∧
    (o.kind = .copy → o.ssp = true → o.dsp = true → o.src.toNat + o.len0 ≤ 2 ^ 23 → o.dst.toNat + o.len0 ≤ 2 ^ 23 →
      (o.src.toNat + o.len0 ≤ o.dst.toNat ∨ o.dst.toNat + o.len0 ≤ o.src.toNat) →
      Answers (exec (.dxOpComplete tile 0 [] []) s) (fun t => ended t ∧ rest' t ∧
        (Memory.wf x.scratch = true → ∀ j, j < o.len0 →
          Mem.byte (t.tile tile.val).scratch (o.dst.toNat + j) = Mem.byte x.scratch (o.src.toNat + j)))) ∧
    (∀ pa coh s1, (o.kind = .copy ∨ o.kind = .red) → o.ssp = true → o.dsp = false → o.src.toNat + o.len0 ≤ 2 ^ 23 →
      o.dst.toNat % 4096 + o.len0 ≤ 4096 →
      translate (.tile tile) k.ctx.val o.dst.toNat (if o.kind = .red then .reduction else .dxWrite) true
        (drainAll tile.val (s.modTile tile.val (fun x => { x with dx := rest }))).2 = (.ok pa coh, s1) →
      hbmVisible pa = true →
      let g := dxRead tile.val [⟨0, spadPa tile.val o.src.toNat, o.len0, false⟩] s1.took
      let w := match (if o.kind = .red then dxRedOf o.redOp o.redFmt else none) with
        | some (op, fmt) => memReduce (dxPort g.2 tile.val coh) op fmt pa g.1.data g.2
        | none => memWrite (dxPort g.2 tile.val coh) pa g.1.data g.2
      w.1.dies = 0 → w.2.eng.stalled = false →
      Answers (exec (.dxOpComplete tile 0 [] []) s) (fun t => ended t ∧ t.pool = w.2.pool ∧
        plain g.1.data = Mem.bytes x.scratch o.src.toNat o.len0)) ∧
    (∀ f s1, o.dsp = false → (o.kind = .fill ∨ o.ssp = true ∧ o.src.toNat + o.len0 ≤ 2 ^ 23) → o.dst.toNat % 4096 + o.len0 ≤ 4096 →
      translate (.tile tile) k.ctx.val o.dst.toNat (if o.kind = .red then .reduction else .dxWrite) true
        (drainAll tile.val (s.modTile tile.val (fun x => { x with dx := rest }))).2 = (.fault f, s1) → s1.eng.stalled = false →
      Answers (exec (.dxOpComplete tile 0 [] []) s) (fun t => AbortedOn t tile.val k .xlateFault (xreasonCode f) ∧ (t.tile tile.val).dx = rest))) ∧
  (∀ (s : State) (tile : TileId) (g : Nat) (l : Fin 64) (th : Thread) (w : ThreadWait), s.live = true →
    s.thread? tile.val g l.val = some th → th.st = .waiting w → w.registered = false → s.fenced (w.phys / 4096) = false →
    s.parted (some (tile.val / 24)) (w.phys / 4096) = false → (s.tile tile.val).waits.contains ⟨w.phys, w.target⟩ = false → (s.tile tile.val).waits.length < 64 →
    (s.obj w.phys - w.target).toInt < 0 →
    Answers (exec (.waitRecordRegister tile g l) s) (fun t =>
      (t.tile tile.val).waits = (s.tile tile.val).waits ++ [⟨w.phys, w.target⟩] ∧
      t.sync.waits = s.sync.waits ++ [⟨w.phys, w.target, .tile tile⟩] ∧
      t.thread? tile.val g l.val = some { th with st := .waiting { w with registered := true } }))

/-- A command that meets errors in its tile's memories does what the same command without them does after them (that they come first is the model's reading, LOG 126). An uncorrectable error in the scratchpad poisons its 8 B word and no other, leaves the bytes, and writes the record SPAD_UE;
one in a thread's register marks the register and changes nothing else of the thread; one in the merging buffer marks the written bytes of its 8 B word. An error in the L1 drops the line, one in the instruction cache
the words of its 64 B line. An error that is corrected changes no tile; that an uncorrectable one in a register or the buffer leaves no
record is the model's reading (LOG 126). A cell fault of an array breaks the array and makes no record. -/
def Obligations.ErrorsInTileMemories : Prop :=
  (∀ (i : Instr) (s : State) (tile : TileId) (fl : List Flaw), s.live = true → i.meets = some (tile, fl) →
    exec i s = exec i.flawless (meetFlaws tile.val fl s)) ∧
  (∀ (s : State) (tile : TileId) (word : Fin 1048576),
    let t := meetFlaw tile.val (.spad word true) s
    (t.tile tile.val).scratch = (s.tile tile.val).scratch ∧ KeySet.has (t.tile tile.val).spoison word.val = true ∧
    (∀ w, w ≠ word.val → KeySet.has (t.tile tile.val).spoison w = KeySet.has (s.tile tile.val).spoison w) ∧
    (∀ u, u ≠ tile.val → t.tile u = s.tile u) ∧
    (strayRoute 1 s = none → t.ras.wrptr = s.ras.wrptr + 1) ∧
    ∃ r, Sparse.find? t.ras.log (s.ras.wrptr.toNat % 256) = some r ∧ r.cls = 1 ∧ r.code = 0x16 ∧
      r.unit.toNat = 0x20 + tile.val ∧ r.addr.toNat = 8 * word.val ∧ r.count = 1) ∧
  (∀ (s : State) (tile : TileId) (g : Nat) (l : Fin 64) (r : BitVec 6) (th : Thread), r ≠ 0 →
    s.thread? tile.val g l.val = some th →
    let t := meetFlaw tile.val (.reg g l r true) s
    (∃ th', t.thread? tile.val g l.val = some th' ∧ th' = { th with marks := th'.marks } ∧ th'.marked r.toNat = true ∧
      ∀ r', r' ≠ r.toNat → th'.marked r' = th.marked r') ∧
    (∀ j, j ≠ l.val → t.thread? tile.val g j = s.thread? tile.val g j) ∧ t = { s with tiles := t.tiles } ∧
    (∀ u, u ≠ tile.val → t.tile u = s.tile u)) ∧
  (∀ (s : State) (tile : TileId) (granule : Nat) (word : Fin 32) (n : Nat) (e : MergeEntry),
    (s.tile tile.val).merge[n]? = some e →
    ∃ e', ((meetFlaw tile.val (.merge granule word true) s).tile tile.val).merge[n]? = some e' ∧
      e' = { e with poison := e'.poison } ∧
      ∀ j, KeySet.has e'.poison j =
        (KeySet.has e.poison j || (e.granule == granule && j / 8 == word.val && (Sparse.find? e.bytes j).isSome))) ∧
  (∀ (s : State) (tile : TileId), Sparse.wf {} s.tiles = true →
    (∀ i : Fin 48, Sparse.sortedFrom none (s.tile tile.val).l1 = true →
      let t := meetFlaw tile.val (.l1 i) s
      Sparse.find? (t.tile tile.val).l1 i.val = none ∧
      ∀ j, j ≠ i.val → Sparse.find? (t.tile tile.val).l1 j = Sparse.find? (s.tile tile.val).l1 j) ∧
    (∀ w r, (s.tile tile.val).run = some r →
      ∃ r', ((meetFlaw tile.val (.icache w) s).tile tile.val).run = some r' ∧ r' = { r with icache := r'.icache } ∧
        ∀ k, Sparse.find? r'.icache k = if k / 8 = w / 8 then none else Sparse.find? r.icache k)) ∧
  (∀ (s : State) (tile : TileId) (f : Flaw),
    (match f with | .spad _ b | .reg _ _ _ b | .merge _ _ b => b = false | .l1 _ | .icache _ | .cell _ => False) →
    (meetFlaw tile.val f s).tiles = s.tiles) ∧
  (∀ (s : State) (tile : TileId) (a : Fin 2),
    (meetFlaw tile.val (.cell a) s).broken tile.val a.val = true ∧
    (∀ t b, (t ≠ tile.val ∨ b ≠ a.val) → b < 2 → (meetFlaw tile.val (.cell a) s).broken t b = s.broken t b) ∧
    meetFlaw tile.val (.cell a) s = { s with worn := (meetFlaw tile.val (.cell a) s).worn })

/-- At an HBM address that its home serves: a write inside one unit stores its bytes, leaves every other byte of HBM, and its line dirty in the home near cache; an allocating read changes no
byte and leaves its line there; a word atomic on an unpoisoned aligned word leaves what the operation gives over 32 or 64 bits; a bulk reduction of a whole unpoisoned unit
leaves, for int32 and int64, the sum modulo 2^w or the signed minimum or maximum of each element, and every byte outside the unit as before. Nothing outside pool and dies changes but the
model's counter of free values and, where the request writes, the hold of a write snoop on its unit, which ends (R245). -/
def Obligations.PoolRequests : Prop :=
  (∀ (s : State) (x : PoolAccess), s.live = true → Serves s x.pa → x.ncErr = .none → x.hbmErr = .none → x.cls = .allocating →
    let d := dieOfStack (s.home x.pa).1
    (x.write = true → 0 < x.data.length → x.pa % 256 + x.data.length ≤ 256 →
      Answers (exec (.nearCacheAccess x) s) (fun t =>
        t.pool.hbm = Mem.setBytes s.pool.hbm x.pa x.data ∧
        (∀ a, a < x.pa ∨ x.pa + x.data.length ≤ a → Mem.byte t.pool.hbm a = Mem.byte s.pool.hbm a) ∧
        Sparse.find? (t.die d).nc (x.pa / 256) = some true ∧
        t = { s with pool := t.pool, dies := t.dies, free := t.free, cores := { s.cores with holds := s.cores.holds.filter (· != x.pa / 256) } })) ∧
    (x.write = false → 0 < x.len →
      Answers (exec (.nearCacheAccess x) s) (fun t =>
        (Sparse.find? (t.die d).nc (x.pa / 256)).isSome = true ∧ t = { s with dies := t.dies, free := t.free }))) ∧
  (∀ (s : State) (r : Requester) (pa : Nat) (op : AtomOp) (wide : Bool) (c b : W64), s.live = true → Serves s pa →
    let n := if wide then 8 else 4
    pa % n = 0 → KeySet.has s.pool.poison (pa / 32) = false →
    let old : BitVec (8 * n) := BitVec.ofNat _ (ofBytes (Mem.bytes s.pool.hbm pa n))
    let b' : BitVec (8 * n) := BitVec.ofNat _ b.toNat
    let new : BitVec (8 * n) := match op with
      | .add => old + b'
      | .swap => b'
      | .cas => if old = BitVec.ofNat _ c.toNat then b' else old
      | .minS => if b'.slt old then b' else old
      | .maxS => if old.slt b' then b' else old
      | .minU => if b'.ult old then b' else old
      | .maxU => if old.ult b' then b' else old
    Answers (exec (.wordAtomic r pa op wide c b) s) (fun t =>
      t.pool.hbm = Mem.setBytes s.pool.hbm pa (toBytes new.toNat n) ∧
      (∀ a, a < pa ∨ pa + n ≤ a → Mem.byte t.pool.hbm a = Mem.byte s.pool.hbm a) ∧
      t = { s with pool := t.pool, dies := t.dies, free := t.free, cores := { s.cores with holds := s.cores.holds.filter (· != pa / 256) } })) ∧
  (∀ (s : State) (r : Requester) (pa : Nat) (op : RedOp) (fmt : RedFmt) (data : List Byte), s.live = true → Serves s pa →
    pa % 256 = 0 → data.length = 256 → (op = .add ∨ fmt = .int32 ∨ fmt = .int64) →
    (∀ j, j < 8 → KeySet.has s.pool.poison (pa / 32 + j) = false) →
    Answers (exec (.bulkReduction r pa op fmt data false .none) s) (fun t => ∃ new : List Byte, new.length = 256 ∧
      t.pool.hbm = Mem.setBytes s.pool.hbm pa new ∧
      (∀ a, a < pa ∨ pa + 256 ≤ a → Mem.byte t.pool.hbm a = Mem.byte s.pool.hbm a) ∧
      t = { s with pool := t.pool, dies := t.dies, free := t.free, cores := { s.cores with holds := s.cores.holds.filter (· != pa / 256) } } ∧
      let el : (n : Nat) → List Byte → Nat → BitVec (8 * n) := fun n l j => BitVec.ofNat _ (leAt l (n * j) n)
      let cur := Mem.bytes s.pool.hbm pa 256
      let comb : (n : Nat) → Nat → Prop := fun n j =>
        let a := el n cur j
        let b := el n data j
        el n new j = (match op with
          | .add => a + b
          | .min => if b.slt a then b else a
          | .max => if a.slt b then b else a)
      (fmt = .int32 → ∀ j, j < 64 → comb 4 j) ∧ (fmt = .int64 → ∀ j, j < 32 → comb 8 j)))

/-- The agitator, enabled, with nothing due and a clean unit of a working pseudo-channel, passes to the next burst, or at the last one to the first of a new pass, which PASSES counts and whose period is
PERIOD; an uncorrectable burst it finds is poisoned, counted in UE, which sets UE_EV where the count rises (R210), and recorded in ERRADDR; of a unit dirty in the near cache the rest is skipped. A recalibrated channel is noted in the round, refresh management changes no register, and a pseudo-channel that fails in service shows in PC_FAIL and is logged once as PC_FAILED, with no further record where the class's interrupt goes to a file that may be written.
From an origin with full access: CLR of HBM_Ss_ECC zeroes the counts and ERRADDR, and the events named are cleared. In a life-cycle state that permits tests START of a generator that does not run leaves it running with the fields of the
write and its counts 0, STOP leaves it running to its end, and the end leaves DONE and what its checker counted. GO of an idle 1500 port loads its fields and sets BUSY, and its end clears BUSY and sets DONE. In any other life-cycle state START, STOP and GO are ignored and logged. -/
def Obligations.StackWorkAndService : Prop :=
  ((∀ (s : State) (k : StackId), s.live = true → s.fenced (k.val / 3) = false → (s.stack k.val).agDue = [] → (s.stack k.val).agEnable = true →
    let x := s.stack k.val
    (unitDirty k.val (32 * x.agPos) s = true → x.agPos + (8 - x.agPos % 8) < 2 ^ 30 → ∀ e,
      exec (.agitatorRead k e) s = .next (s.setStack k.val { x with agPos := x.agPos + (8 - x.agPos % 8) })) ∧ (
    unitDirty k.val (32 * x.agPos) s = false → s.pcFailed k.val (pcOf (32 * x.agPos)) = false →
    (x.agPos + 1 < 2 ^ 30 → exec (.agitatorRead k .none) s = .next (s.setStack k.val { x with agPos := x.agPos + 1 })) ∧
    (x.agPos + 1 = 2 ^ 30 → exec (.agitatorRead k .none) s =
      .next (s.setStack k.val { x with agPos := 0, passes := satAdd x.passes 1, passPeriod := x.period })) ∧
    (x.agPos + 1 < 2 ^ 30 → Answers (exec (.agitatorRead k .uncorrectable) s) (fun t =>
      KeySet.has t.pool.poison (s.paOfStack k.val (32 * x.agPos) / 32) = true ∧
      (t.stack k.val).ue = satAdd x.ue 1 ∧ (t.stack k.val).ueEv = (x.ueEv || x.ue != BitVec.allOnes _) ∧ (t.stack k.val).errUe = true ∧
      (t.stack k.val).errValid = true ∧ (t.stack k.val).errBurst = BitVec.ofNat 30 x.agPos ∧ t.pool.hbm = s.pool.hbm)))) ∧
  (∀ (s : State) (k : StackId) (ch : Fin 16), s.live = true → s.fenced (k.val / 3) = false →
    exec (.phyRecalibration k ch) s = .next (s.modStack k.val (fun x => { x with
      recal := if x.recal ||| BitVec.ofNat 16 (2 ^ ch.val) = BitVec.allOnes 16 then 0 else x.recal ||| BitVec.ofNat 16 (2 ^ ch.val) }))) ∧
  (∀ (s : State) (k : StackId) (pc : Fin 32) (bank : Nat), s.live = true → exec (.refreshManagement k pc bank) s = .next s) ∧
  (∀ (s : State) (k : StackId) (pc : Fin 32), s.live = true → s.fenced (k.val / 3) = false → s.pcFailed k.val pc.val = false →
    strayRoute RasClass.degraded.code s = none →
    Answers (exec (.pcFailure k pc) s) (fun t =>
      (∀ c, c < 32 → t.pcFailed k.val c = (s.pcFailed k.val c || c == pc.val)) ∧
      t.ras.wrptr = s.ras.wrptr + 1 ∧ t.pool.hbm = s.pool.hbm ∧
      (Sparse.find? t.ras.log (s.ras.wrptr.toNat % 256)).map (fun e => (e.code, e.unit, e.info)) =
        some (0x12, BitVec.ofNat 8 (0x10 + k.val), BitVec.ofNat 64 pc.val)))) ∧
  (∀ (s : State) (o : Origin) (k : StackId) (pc : Fin 32), s.live = true → originFull o = true →
    (∀ v : W64, exec (.hbmEccClr o k v) s = .next (s.modStack k.val (fun x =>
      let y := { x with ceEv := x.ceEv && !v.getLsbD 48, ueEv := x.ueEv && !v.getLsbD 49 }
      if v.getLsbD 50 then { y with ce := 0, ue := 0, errBurst := 0, errUe := false, errSrc := 0, errValid := false } else y))) ∧
    (∀ v : W64, s.lcService = true → v.getLsbD 0 = true → v.getLsbD 1 = false → (s.tgen k.val pc.val).running = false →
      Answers (exec (.tgenStart o k pc v) s) (fun t =>
        let g := t.tgen k.val pc.val
        g.running = true ∧ g.stopping = false ∧ g.errors = 0 ∧ g.firstv = false ∧ g.pattern = v.extractLsb' 2 2 ∧
        g.size = v.extractLsb' 4 2 ∧ g.random = v.getLsbD 6 ∧ g.mode = v.extractLsb' 7 2 ∧ g.len = v.extractLsb' 32 32 ∧
        t.pool.hbm = s.pool.hbm)) ∧
    (∀ v : W64, s.lcService = true → v.getLsbD 1 = true → (s.tgen k.val pc.val).running = true →
      Answers (exec (.tgenStop o k pc v) s) (fun t =>
        (t.tgen k.val pc.val).running = true ∧ (t.tgen k.val pc.val).stopping = true ∧ t.pool.hbm = s.pool.hbm)) ∧
    (∀ errors first ecc, (s.tgen k.val pc.val).running = true →
      Answers (exec (.tgenDone k pc errors first ecc) s) (fun t =>
        let g := t.tgen k.val pc.val
        g.running = false ∧ g.done = true ∧ g.errors = errors ∧ g.firstv = first.isSome ∧ (∀ f, first = some f → g.first = f))) ∧
    (∀ v : W32, s.lcService = true → (s.stack k.val).p1500Busy = false → v.getLsbD 23 = true →
      Answers (exec (.p1500Go o k v) s) (fun t =>
        let x := t.stack k.val
        x.p1500Busy = true ∧ x.wir = v.extractLsb' 0 8 ∧ x.p1500Ch = v.extractLsb' 8 4 ∧ x.p1500Len = v.extractLsb' 12 11 ∧
        x.p1500Done = ((s.stack k.val).p1500Done && !v.getLsbD 25))) ∧
    (∀ ecc, (s.stack k.val).p1500Busy = true →
      Answers (exec (.p1500Done k ecc) s) (fun t => (t.stack k.val).p1500Busy = false ∧ (t.stack k.val).p1500Done = true)) ∧
    (∀ (v : W64) (u : W32), s.lcService = false → (v.getLsbD 0 || v.getLsbD 1) = true →
      exec (.tgenStart o k pc v) s = .next (logReg (0x901000 + 0x10000 * k.val + 0x10 * pc.val) (originReq o) s) ∧
      exec (.tgenStop o k pc v) s = .next (logReg (0x901000 + 0x10000 * k.val + 0x10 * pc.val) (originReq o) s) ∧
      exec (.p1500Go o k u) s = .next (logReg (0x902000 + 0x10000 * k.val) (originReq o) s)))

/-- A write of a region register with APPLY and a legal NEXT, in a band outside the reserve, records NEXT for flash and, where the band's NEXT values are valid and the band is not changing, starts the change with
them; where the values are not valid or the band is changing, REFUSED is set and the write is logged. At the end of a change every byte of an affected region reads 0, without poison, every other byte is as before,
the band is not changing and its ACTIVE values are those with which the change began. -/
def Obligations.InterleaveChanges : Prop :=
  (∀ (s : State) (o : Origin) (k : StackId) (b : Fin 32) (v : W32), s.live = true → originFull o = true → regionRsv k.val b.val = false →
    v.getLsbD 8 = true → v.extractLsb' 0 2 ≠ 3 →
    let r := s.region k.val b.val
    let r' : RegionReg := { r with next := v.extractLsb' 0 2, refused := r.refused && !v.getLsbD 10 }
    let s1 : State := { s.setRegion k.val b.val r' with
      flash := { s.flash with stores := s.flash.stores ++ [.region k b (v.extractLsb' 0 2)] } }
    (bandValid b.val ((s1.bandNext b.val).map (·.toNat)) = true → Sparse.find? s.pool.change b.val = none →
      exec (.applyBand o k b v) s =
        .next { s1 with pool := { s1.pool with change := Sparse.insert s1.pool.change b.val (s1.bandNext b.val) } }) ∧
    ((bandValid b.val ((s1.bandNext b.val).map (·.toNat)) = false ∨ (Sparse.find? s.pool.change b.val).isSome = true) →
      exec (.applyBand o k b v) s = .next (logReg (0x900100 + 0x10000 * k.val + 4 * b.val) (originReq o)
        (s1.setRegion k.val b.val { s1.region k.val b.val with refused := true })))) ∧
  (∀ (s : State) (b : Fin 32) (nxt : List (BitVec 2)), s.live = true → Sparse.find? s.pool.change b.val = some nxt →
    let hit : Nat → Bool := fun pa => pa / 2 ^ 30 / 12 == b.val &&
      (affectedRegions (s.bandActive b.val) (nxt.map (·.toNat))).contains (pa / 2 ^ 30 % 12)
    Answers (exec (.bandChangeComplete b) s) (fun t =>
      (∀ pa, hit pa = true → Mem.byte t.pool.hbm pa = 0 ∧ KeySet.has t.pool.poison (pa / 32) = false ∧
        ∀ g, g.running = false → hbmByte t g pa = 0) ∧
      (Sparse.sortedFrom none s.pool.change = true → Sparse.find? t.pool.change b.val = none) ∧
      (Sparse.sortedFrom none s.pool.region = true → ∀ st, st < 12 → (t.region st b.val).active = nxt.getD st 0) ∧
      (∀ pa, hit pa = false → Mem.byte t.pool.hbm pa = Mem.byte s.pool.hbm pa) ∧
      t = { s with pool := t.pool, dies := t.dies }))

/-- On an HBM line that its home serves and no ordering point holds, with room in the L3: a load miss with no Modified copy installs the line Shared with the bytes of the L3's copy, poisoned where an uncorrectable error is found in that (which command finds the error is the model's reading of R388, LOG 126), or, without an L3 copy, with those of HBM; with a Modified copy in another core it writes that copy's bytes back and leaves both cores with the line Shared; a store by the owner of the Modified copy, or where no cache has the line, leaves the core's
copy Modified with its bytes in place and no other core with a copy; an AMO on an unpoisoned aligned word leaves the result in HBM and no core with a copy where no copy was Modified; LR reserves the line and holds it Modified; SC with
reservation and Modified line stores its bytes and gives the reservation up, and without a reservation stores nothing. What a core did before a load that register space answers is seen in its hart: stimecmp and vstimecmp as written, the time and the two
timer interrupts (time not below the register), and FENCE.I empties the L1 instruction cache (that these come with the core's next load is the model's choice, LOG 135). -/
def Obligations.CoreLoadsAndStores : Prop :=
  (∀ (s : State) (k : CoreId) (a : CoreLoad) (x : CoreAct) (o : Nat), s.live = true → Sparse.wf {} s.cores.harts = true → paKind a.pa = .regs o → o % 8 = 0 → a.bytes = 8 →
    a.l1d = none → a.l1i = false → a.acts = [x] → s.l2 k.val (a.pa / 64) = none → lineHeld s (a.pa / 64) = false →
    (∀ v, x = .stimecmp v → Answers (exec (.coreLoadMiss k a [] .none) s) (fun t => (t.hart k.val) = { s.hart k.val with stimecmp := v } ∧
      t = { s with cores := { s.cores with harts := t.cores.harts } })) ∧
    (∀ v, x = .vstimecmp v → Answers (exec (.coreLoadMiss k a [] .none) s) (fun t => (t.hart k.val) = { s.hart k.val with vstimecmp := v } ∧
      t = { s with cores := { s.cores with harts := t.cores.harts } })) ∧
    (x = .fenceI → Answers (exec (.coreLoadMiss k a [] .none) s) (fun t => (t.hart k.val) = { s.hart k.val with l1i := [] } ∧
      t = { s with cores := { s.cores with harts := t.cores.harts } })) ∧
    (x = .readTime → exec (.coreLoadMiss k a [] .none) s = .next (s.emit (.coreTime k s.time))) ∧
    (x = .readTimers → exec (.coreLoadMiss k a [] .none) s = .next (s.emit
      (.coreTimers k (decide ((s.hart k.val).stimecmp.toNat ≤ s.time.toNat)) (decide ((s.hart k.val).vstimecmp.toNat ≤ s.time.toNat)))))) ∧
  ∀ (s : State) (k : CoreId) (pa : Nat), s.live = true → Serves s pa → Serves s (64 * (pa / 64)) → lineHeld s (pa / 64) = false →
    s.cores.l3.length < l3Lines →
    let line := pa / 64
    ((s.l2 k.val line) = none → ownerOf s line = none → s.l3 line = none →
      ∀ err, Answers (exec (.coreLoadMiss k { pa := pa } [] err) s) (fun t =>
        ∃ bad, t.l2 k.val line = some ⟨false, Mem.bytes s.pool.hbm (64 * line) 64, bad⟩ ∧ t.pool = s.pool)) ∧
    (∀ c err, s.l2 k.val line = none → ownerOf s line = none → s.l3 line = some c →
      Answers (exec (.coreLoadMiss k { pa := pa } [] err) s) (fun t =>
        t.l2 k.val line = some ⟨false, c.data, c.poison || err == .uncorrectable⟩ ∧ t.pool = s.pool)) ∧
    (∀ j c, s.l2 k.val line = none → ownerOf s line = some (some j, c) → c.data.length = 64 →
      Answers (exec (.coreLoadMiss k { pa := pa } [] .none) s) (fun t =>
        t.l2 k.val line = some { c with modified := false } ∧ t.l2 j line = some { c with modified := false } ∧
        t.pool.hbm = Mem.setBytes s.pool.hbm (64 * line) c.data)) ∧
    (∀ data c, 0 < data.length → pa % 64 + data.length ≤ 64 →
      (ownerOf s line = some (some k.val, c) ∨
        (ownerOf s line = none ∧ s.l2 k.val line = none ∧ s.l3 line = none ∧ c.data = Mem.bytes s.pool.hbm (64 * line) 64)) →
      Answers (exec (.coreStoreMiss k pa data []) s) (fun t =>
        (∃ c', t.l2 k.val line = some c' ∧ c'.modified = true ∧ c'.data = patch c.data (pa % 64) data) ∧
        (∀ j, j < 48 → j ≠ k.val → t.l2 j line = none) ∧ t.pool = s.pool)) ∧
    (∀ op wide (c b : W64), pa % (if wide then 8 else 4) = 0 → KeySet.has s.pool.poison (pa / 32) = false → ownerOf s line = none →
      let n := if wide then 8 else 4
      Answers (exec (.coreAmo k pa op wide c b) s) (fun t =>
        t.pool.hbm = Mem.setBytes s.pool.hbm pa
          (toBytes (atomNew op (8 * n) (ofBytes (Mem.bytes s.pool.hbm pa n)) c.toNat b.toNat) n) ∧
        ∀ j, j < 48 → t.l2 j line = none)) ∧
    Answers (exec (.lrSc k pa none) s) (fun t => Sparse.find? t.cores.resv k.val = some line ∧
      ∃ c, t.l2 k.val line = some c ∧ c.modified = true) ∧
    (∀ data c, s.l2 k.val line = some c → c.modified = true → Sparse.find? s.cores.resv k.val = some line →
      pa % 64 + data.length ≤ 64 →
      Answers (exec (.lrSc k pa (some data)) s) (fun t => t.cores.resv = Sparse.drop s.cores.resv k.val ∧
        t.l2 k.val line = some { c with data := patch c.data (pa % 64) data, poison := c.poison && decide (data.length < 64) } ∧
        t.pool = s.pool)) ∧
    (∀ data, Sparse.find? s.cores.resv k.val = none →
      exec (.lrSc k pa (some data)) s = .next { s with cores := { s.cores with resv := Sparse.drop s.cores.resv k.val } })

/-- For an HBM line that its home serves and no ordering point holds, with room in the L3: an eviction from an L2 leaves the copy in the L3, one from the L3 writes a Modified copy's 64 bytes to HBM, poisoned where the copy is or where an uncorrectable error is found in it (which command finds the error is the model's reading of R388, LOG 126); CBO.CLEAN and an engine's read snoop write the
bytes of a Modified copy to HBM and leave it Shared; CBO.FLUSH, CBO.INVAL and an engine's write snoop leave no core with a copy, the Modified one's bytes in HBM, and the write snoop leaves the unit held; a snoop of a unit of which no line is Modified changes no bytes; CBO.ZERO leaves the core with a
Modified line of zeros and no other core with a copy. -/
def Obligations.CacheLineMovements : Prop :=
  ∀ (s : State) (k : CoreId) (line : Nat), s.live = true → Serves s (64 * line) → lineHeld s line = false → s.cores.l3.length < l3Lines →
    (∀ c, s.l2 k.val line = some c →
      ∀ err, Answers (exec (.l2Eviction k line err) s) (fun t =>
        t.l3 line = some { c with poison := c.poison || err == .uncorrectable } ∧ t.pool = s.pool)) ∧
    (∀ c err, s.l3 line = some c → c.data.length = 64 → Sparse.sortedFrom none s.cores.l3 = true →
      Answers (exec (.l3Eviction line err) s) (fun t =>
        t.pool.hbm = (if c.modified then Mem.setBytes s.pool.hbm (64 * line) c.data else s.pool.hbm) ∧
        (c.modified = true → c.poison = true ∨ err = .uncorrectable → ∀ j, j < 2 → KeySet.has t.pool.poison (2 * line + j) = true) ∧
        t.cores.l3 = Sparse.drop s.cores.l3 line)) ∧
    (∀ c, s.l2 k.val line = some c → ownerOf s line = some (some k.val, c) → c.data.length = 64 →
      Answers (exec (.cboClean k (64 * line)) s) (fun t =>
        t.pool.hbm = Mem.setBytes s.pool.hbm (64 * line) c.data ∧ t.l2 k.val line = some { c with modified := false }) ∧
      (∀ i : Instr, i = .cboFlush k (64 * line) ∨ i = .cboInval k (64 * line) →
        Answers (exec i s) (fun t =>
          t.pool.hbm = Mem.setBytes s.pool.hbm (64 * line) c.data ∧ ∀ j, j < 48 → t.l2 j line = none))) ∧
    (∀ u, u = line / 4 → hbmVisible (256 * u) = true → (∀ l, l / 4 = u → ownerOf s l = none) →
      Answers (exec (.engineReadSnoop u) s) (fun t => t.cores = s.cores ∧ t.pool = s.pool) ∧
      Answers (exec (.engineWriteSnoop u) s) (fun t => (∀ l j, l / 4 = u → j < 48 → t.l2 j l = none) ∧ lineHeld t line = true ∧ t.pool = s.pool)) ∧
    (∀ u w c, u = line / 4 → hbmVisible (256 * u) = true → ownerOf s line = some (w, c) → c.data.length = 64 →
      (∀ l, l / 4 = u → l ≠ line → ownerOf s l = none) →
      Answers (exec (.engineReadSnoop u) s) (fun t =>
        t.pool.hbm = Mem.setBytes s.pool.hbm (64 * line) c.data ∧ ownerOf t line = none ∧
        ∀ j c', s.l2 j line = some c' → t.l2 j line = some { c' with modified := false }) ∧
      Answers (exec (.engineWriteSnoop u) s) (fun t =>
        t.pool.hbm = Mem.setBytes s.pool.hbm (64 * line) c.data ∧ (∀ l j, l / 4 = u → j < 48 → t.l2 j l = none) ∧
        lineHeld t line = true)) ∧
    (ownerOf s line = none →
      Answers (exec (.cboZero k (64 * line)) s) (fun t => t.l2 k.val line = some ⟨true, List.replicate 64 0, false⟩ ∧
        (∀ j, j < 48 → j ≠ k.val → t.l2 j line = none) ∧ t.pool = s.pool))

/-- With the link up, a BAR2 read inside BAR2's size (R272) and one served unit returns its bytes, and a BAR2 write stores them and nothing else but what the negatives record of it. In CXL mode on a host line in the host-line cache with no core copy: SnpInv takes the line out and returns dirty
data, which host memory then holds, SnpData leaves it Shared so, SnpCur returns the data and changes nothing else; an eviction tells the host of the line, and of a Modified one sends the data, which host memory then holds, poisoned where the line is or where an uncorrectable error is found in it (R248, R388; the messages for the others are the model's reading, LOG 146). An identity of 1 to 255 written to an S-level file by PF0 becomes pending. -/
def Obligations.HostAccessesAndSnoops : Prop :=
  (∀ (s : State) (pa n : Nat) (data : List Byte), s.live = true → s.pcie.linkUp = true → Serves s pa → hbmVisible pa = true →
    (0 < n → pa % 256 + n ≤ 256 → pa + n ≤ s.pcie.bar2Bytes → (∀ j, j < 8 → KeySet.has s.pool.poison (pa / 256 * 8 + j) = false) →
      Answers (exec (.hostBar2Read pa n) s) (fun t => t.out = s.out ++ [.hostRead (Mem.bytes s.pool.hbm pa n) false] ∧ t.pool = s.pool)) ∧
    (0 < data.length → pa % 256 + data.length ≤ 256 → pa + data.length ≤ s.pcie.bar2Bytes →
      Answers (exec (.hostBar2Write pa data) s) (fun t => t.pool.hbm = Mem.setBytes s.pool.hbm pa data ∧ t.out = s.out ∧
        t = { s with pool := t.pool, dies := t.dies, free := t.free, hub := { s.hub with trace := t.hub.trace } }))) ∧
  (∀ (s : State) (line p : Nat) (h : HLine), s.live = true → s.pcie.linkUp = true → s.pcie.cxl = true → paKind (64 * line) = .host p →
    (∀ j, j < 48 → s.l2 j line = none) → s.l3 line = none → Sparse.find? s.cores.hlc line = some h →
    let m' := if h.st = .m then Mem.setBytes s.hostMem (64 * line - 0x100000000000) h.data else s.hostMem
    Answers (exec (.snpInv line) s) (fun t => t.hostMem = m' ∧ t.cores.hlc = Sparse.drop s.cores.hlc line ∧
      t.out = s.out ++ [.snoop (if h.st = .m then h.data else []) (h.st == .m) (h.st == .m && h.poison)]) ∧
    Answers (exec (.snpData line) s) (fun t => t.hostMem = m' ∧ Sparse.find? t.cores.hlc line = some ⟨.s, h.data, h.poison⟩ ∧
      t.out = s.out ++ [.snoop h.data (h.st == .m) h.poison]) ∧
    exec (.snpCur line) s = .next { s with out := s.out ++ [.snoop h.data false h.poison] } ∧
    (∀ err, Sparse.sortedFrom none s.cores.hlc = true → Answers (exec (.hostLineEviction line err) s) (fun t => t.hostMem = m' ∧ t.cores.hlc = Sparse.drop s.cores.hlc line ∧
      (err ≠ .corrected → t.out = s.out ++ [match h.st with
        | .m => .cxl .dirtyEvict line h.data (h.poison || err == .uncorrectable)
        | .e => .cxl .cleanEvict line h.data (h.poison || err == .uncorrectable)
        | .s => .cxl .cleanEvictNoData line [] false])))) ∧
  (∀ (s : State) (k : CoreId) (v : W32), s.live = true → 1 ≤ v.toNat → v.toNat ≤ 255 →
    Answers (exec (.imsicWrite .pf0 k .s v) s) (fun t => t = { s with cores := { s.cores with imsic := t.cores.imsic } } ∧
      ∃ x, Sparse.find? t.cores.imsic (4 * k.val + 1) = some x ∧
        ∀ b, b < 256 → x.getLsbD b = ((Sparse.read (0 : BitVec 256) s.cores.imsic (4 * k.val + 1)).getLsbD b || b == v.toNat)))

/-- For a walk of the hub in a context, none of whose reads must wait at its home (R216): where the walk ends in a leaf whose rights and target permit the access, the hub's TLB holds the leaf for the address; where it ends in a fault and the context has no recorded one,
XLAT_CTXc_FAULT holds VALID, the address, the kind and the reason. A context without a root page table gives the reason NOT_VALID (the manual gives none there: the model's choice, LOG 168). -/
def Obligations.PageWalks : Prop :=
  ∀ (s : State) (c : CtxId) (va : W64) (kind : XKind) (write : Bool), s.live = true →
    let w := walk .hub c.val va.toNat s
    w.2.eng.stalled = false →
    (∀ size pbase r wr x coh, w.1 = .leaf size pbase r wr x coh → 0 < size →
      checkLeaf ⟨c, va.toNat / size * size, size, pbase, r, wr, x, coh⟩ (needOf kind write) s.cxlAccepted va.toNat =
        .ok (pbase + va.toNat % size) coh →
      Answers (exec (.pageWalkComplete ⟨none, c, va, kind, write⟩) s) (fun t =>
        t = { w.2 with hub := { w.2.hub with tlb := t.hub.tlb } } ∧
        t.hub.tlb.head? = some ⟨c, va.toNat / size * size, size, pbase, r, wr, x, coh⟩)) ∧
    (∀ reason, w.1 = .fault reason → reason ≠ .closed → (w.2.ctx c.val).fault.getLsbD 63 = false →
      exec (.pageWalkComplete ⟨none, c, va, kind, write⟩) s = .next (w.2.modCtx c.val (fun x => { x with
        fault := BitVec.ofNat 64 (va.toNat % 2 ^ 52 + xreasonCode reason * 2 ^ 52 + kindCode kind * 2 ^ 55 + 2 ^ 63) }))) ∧
    ((s.ctx c.val).rootV = false → (s.ctx c.val).safelight = false → va.toNat < 2 ^ 52 → w = (.fault .notValid, s))

/-- From an origin that reaches register space: while a window is disabled and not draining a write of its CTL sets its fields, and with ENABLE the window is enabled with FAULTS 0, but where the context it
names has no tables the write is ignored and logged. A write without ENABLE that keeps the fields of an enabled window disables it, DRAIN showing whether requests are in flight. The end of the drain clears DRAIN, and a
latched enable takes effect. Nothing else changes. -/
def Obligations.ReceiveWindows : Prop :=
  ∀ (s : State) (w : WinId), s.live = true →
    let x := s.window w.val
    (∀ (o : Origin) (v : W64), originFull o = true →
      let x' : Window := { x with
        node := v.extractLsb' 0 20, any := v.getLsbD 20, ctx := v.extractLsb' 21 6, w := v.getLsbD 27, r := v.getLsbD 28,
        sig := v.getLsbD 29, red := v.getLsbD 30 }
      (x.enable = false → x.drain = false → v.getLsbD 31 = false →
        exec (.windowCtlWrite o w v) s = .next (s.setWindow w.val x')) ∧
      (x.enable = false → x.drain = false → v.getLsbD 31 = true → (s.ctx (v.extractLsb' 21 6).toNat).rootV = true →
        exec (.windowCtlWrite o w v) s = .next (s.setWindow w.val { x' with enable := true, faults := 0 })) ∧
      (x.enable = false → x.drain = false → v.getLsbD 31 = true → (s.ctx (v.extractLsb' 21 6).toNat).rootV = false →
        exec (.windowCtlWrite o w v) s = .next (logReg (0x610008 + 0x10 * w.val) (originReq o) s)) ∧
      (x.enable = true → x' = x → v.getLsbD 31 = false →
        exec (.windowCtlWrite o w v) s =
          .next (s.setWindow w.val { x with enable := false, pending := false, drain := decide (x.inflight ≠ 0) }))) ∧
    (x.drain = true → x.inflight = 0 →
      exec (.windowDrainEnd w) s = .next (s.setWindow w.val { x with drain := false, pending := false, enable := x.pending }))

/-- A signal that no die in test mode keeps from its home (R21), on a die that serves, adds its increment modulo 2³², leaves every other object, and takes exactly the waits of the object whose target is then reached off
the list of pending waits. A wait that arrives there registers, unless its target is reached already: then it is not registered, and an arm slot's FIRED is set. A debug write of the value does as a signal does with the
value written. A signal or a wait that a die in test mode keeps from its home stays on its way, and changes nothing (that it goes on after the test is the model's choice, LOG 163).
For a lookup whose reads do not wait at their home (R216): a write of SYNC_CTXc_SIG from an origin that reaches the page, whose VID the hub's lookup finds with the right to signal, sends one signal with the increment of bits 63:32 to the object's home; one whose
lookup fails sends none and is logged. A write of an arm slot with ENABLE whose lookup succeeds enables the slot with FIRED and LOST 0 and the target of bits 63:32 and sends its wait to the object's home; one without ENABLE takes the
slot's wait off its object. -/
def Obligations.SignalsAndWaitsOfObjects : Prop :=
  (∀ (s : State), s.live = true → Sparse.wf 0 s.sync.vals = true →
    let after (t : State) (p : Nat) (v : W32) : Prop :=
      t.obj p = v ∧ (∀ q, q ≠ p → t.obj q = s.obj q) ∧
      (∀ w, w ∈ t.sync.waits ↔ w ∈ s.sync.waits ∧ ¬(w.phys = p ∧ (v - w.target).toNat < 2 ^ 31)) ∧ t.pool = s.pool
    (∀ (n : Nat) (g : Signal), s.sync.sigs[n]? = some g → s.parted (g.src.map (·.val)) (g.phys / 4096) = true →
      exec (.signalApply n) s = .next s) ∧
    (∀ (n : Nat) (w : Wait), s.sync.arrivals[n]? = some w → s.parted w.who.die? (w.phys / 4096) = true →
      exec (.waitRegister n) s = .next s) ∧
    (∀ (n : Nat) (g : Signal), s.sync.sigs[n]? = some g → s.fenced (g.phys / 4096) = false →
      s.parted (g.src.map (·.val)) (g.phys / 4096) = false →
      Answers (exec (.signalApply n) s) (fun t =>
        after t g.phys (s.obj g.phys + g.inc) ∧ t.sync.sigs = s.sync.sigs.eraseIdx n ∧ t.sync.arrivals = s.sync.arrivals)) ∧
    (∀ (n : Nat) (w : Wait), s.sync.arrivals[n]? = some w → s.fenced (w.phys / 4096) = false →
      s.parted w.who.die? (w.phys / 4096) = false →
      (2 ^ 31 ≤ (s.obj w.phys - w.target).toNat → exec (.waitRegister n) s = .next { s with
        sync := { s.sync with arrivals := s.sync.arrivals.eraseIdx n, waits := s.sync.waits ++ [w] } }) ∧
      ((s.obj w.phys - w.target).toNat < 2 ^ 31 → Answers (exec (.waitRegister n) s) (fun t =>
        t.sync = { s.sync with arrivals := s.sync.arrivals.eraseIdx n } ∧ t.pool = s.pool ∧
        (∀ c a, w.who = .arm c a → (Sparse.wf {} s.ctxs = true → Sparse.wf {} (s.ctx c.val).arms = true →
          (Sparse.read {} (t.ctx c.val).arms a.val).fired = true))))) ∧
    (∀ (o : Origin) (p : ObjId) (v : W32), originFull o = true → s.fenced (p.val / 4096) = false →
      s.cutOff (originReq o) (p.val / 4096) = false →
      Answers (exec (.syncObjValWrite o p v) s) (fun t =>
        after t p.val v ∧ t.sync.sigs = s.sync.sigs ∧ t.sync.arrivals = s.sync.arrivals))) ∧
  (∀ (s : State) (o : Origin) (c : CtxId) (v : W64), s.live = true → pageReach o c.val s = true →
    let vid := (v.extractLsb' 0 20).toNat
    let hi := v.extractLsb' 32 32
    let sg := objLookup 0 c.val vid .signal s
    let ar := objLookup 0 c.val vid .arm s
    (∀ p, sg.1 = .ok p → sg.2.eng.stalled = false → exec (.syncCtxSig o c v) s =
      .next { sg.2 with sync := { sg.2.sync with sigs := sg.2.sync.sigs ++ [⟨p, hi, none⟩] } }) ∧
    (∀ e, sg.1 = .error e → sg.2.eng.stalled = false → exec (.syncCtxSig o c v) s = .next (logReg (0x510000 + 0x1000 * c.val) (originReq o) sg.2)) ∧
    (∀ (a : Fin 8), v.getLsbD 20 = true → ∀ p, ar.1 = .ok p → ar.2.eng.stalled = false → Sparse.wf {} ar.2.ctxs = true →
      Sparse.wf {} (ar.2.ctx c.val).arms = true →
      Answers (exec (.armSlotWrite o c a v) s) (fun t =>
        let m := Sparse.read {} (t.ctx c.val).arms a.val
        m.enable = true ∧ m.fired = false ∧ m.lost = false ∧ m.target = hi ∧ m.vid = v.extractLsb' 0 20 ∧
        (⟨p, hi, .arm c a⟩ : Wait) ∈ t.sync.arrivals ∧ t.sync.sigs = ar.2.sync.sigs ∧ t.pool = ar.2.pool)) ∧
    (∀ (a : Fin 8), v.getLsbD 20 = false → Answers (exec (.armSlotWrite o c a v) s) (fun t =>
      (∀ w, w ∈ t.sync.waits ↔ w ∈ s.sync.waits ∧ w.who ≠ .arm c a) ∧ t.sync.vals = s.sync.vals ∧ t.pool = s.pool)))

/-- From an origin that may ring the queue: a tail no more than the ring's slots ahead of HEAD and not behind the present tail becomes the tail, one further ahead puts an ACTIVE queue in ERROR (one that drains goes on to DISABLED: the model's reading of R297, LOG 154), and one behind is logged and ignored. A
CQ head not behind the present head with no more than the ring's entries up to TAIL becomes the head, any other is logged and ignored. A doorbell of a DISABLED queue does nothing.
From an origin that may write the queue registers: a write of ENABLE = 1 to a DISABLED SQ of an active or preempted context, or CQ, whose ring is legal makes it ACTIVE with the fields of the write; ENABLE = 0 puts an ACTIVE queue in DRAINING, where an SQ with nothing fetched or started, or a CQ with nothing
waiting and no enable latched becomes DISABLED at the end of its drain; an SQ is marked as Zoilo's where the control complex enables it (R400). -/
def Obligations.QueuesAndDoorbells : Prop :=
  (∀ (s : State) (o : Origin) (q : QId) (v : W32), s.live = true →
    (originBell o (s.sq q.val).func.toNat = true →
      let x := s.sq q.val
      let n := 16 * 2 ^ x.l.toNat
      (x.state = .disabled → exec (.sqTail o q v) s = .next s) ∧
      (x.state ≠ .disabled → (v - x.tail).toNat < 2 ^ 31 → (v - x.head).toNat ≤ n →
        exec (.sqTail o q v) s = .next (s.setSq q.val { x with tail := v })) ∧
      (x.state = .active → (v - x.tail).toNat < 2 ^ 31 → n < (v - x.head).toNat →
        exec (.sqTail o q v) s = .next (s.setSq q.val { x with state := .error, err := .tail, retries := none })) ∧
      (x.state = .draining ∨ x.state = .error → (v - x.tail).toNat < 2 ^ 31 → n < (v - x.head).toNat →
        exec (.sqTail o q v) s = .next (s.setSq q.val x)) ∧
      (x.state ≠ .disabled → 2 ^ 31 ≤ (v - x.tail).toNat →
        exec (.sqTail o q v) s = .next (logDoorbell (0x1000000 + 0x1000 * q.val) v.toNat s))) ∧
    (originBell o (s.cq q.val).func.toNat = true →
      let x := s.cq q.val
      let n := 16 * 2 ^ x.l.toNat
      (x.state = .disabled → exec (.cqHead o q v) s = .next s) ∧
      (x.state ≠ .disabled → (v - x.head).toNat < 2 ^ 31 → (x.tail - v).toNat ≤ n →
        exec (.cqHead o q v) s = .next (s.setCq q.val { x with head := v })) ∧
      (x.state ≠ .disabled → (2 ^ 31 ≤ (v - x.head).toNat ∨ n < (x.tail - v).toNat) →
        exec (.cqHead o q v) s = .next (logDoorbell (0x1000008 + 0x1000 * q.val) v.toNat s)))) ∧
  (∀ (s : State) (o : Origin) (q : QId) (v : W64), s.live = true → Sparse.wf {} s.sqs = true → Sparse.wf {} s.cqs = true →
    originQueue o = true →
    (let x := s.sq q.val
     (x.state = .disabled → v.getLsbD 0 = true → (v.extractLsb' 21 6).toNat ≤ 32 →
        (v.getLsbD 4 = true ∨ (s.ctx (v.extractLsb' 5 6).toNat).state = .active ∨
          (s.ctx (v.extractLsb' 5 6).toNat).state = .preempted) → x.l.toNat ≤ 12 →
        ringPlaced (x.base.toNat * 4096) (64 * (16 * 2 ^ x.l.toNat)) = true →
        Answers (exec (.sqEnable o q v) s) (fun t =>
          t.sq q.val = { x with
            enable := true, state := .active, pending := false, err := .none, tail := x.head, retries := none,
            admin := v.getLsbD 4, byZoilo := byZoilo o, ctx := v.extractLsb' 5 6, cq := v.extractLsb' 11 10, func := v.extractLsb' 21 6 } ∧
          t = { s with sqs := t.sqs } ∧ (∀ p, p ≠ q.val → t.sq p = s.sq p))) ∧
     (x.state = .active → v.getLsbD 0 = false → x.fetched = [] → x.started = [] →
        Answers (exec (.sqEnable o q v) s) (fun t =>
          (t.sq q.val).state = .draining ∧ t = { s with sqs := t.sqs } ∧ (∀ p, p ≠ q.val → t.sq p = s.sq p))) ∧
     (x.state = .draining → x.fetched = [] → x.started = [] → x.pending = false →
        exec (.queueDrainEnd false q) s = .next (s.setSq q.val { x with state := .disabled }))) ∧
    (let x := s.cq q.val
     (x.state = .disabled → v.getLsbD 0 = true → (v.extractLsb' 18 6).toNat ≤ 32 → x.l.toNat ≤ 12 →
        ringPlaced (x.base.toNat * 4096) (32 * (16 * 2 ^ x.l.toNat)) = true →
        Answers (exec (.cqEnable o q v) s) (fun t =>
          t.cq q.val = { x with
            enable := true, state := .active, pending := false, err := .none, dropped := 0, irqmode := v.extractLsb' 4 2,
            irqall := v.getLsbD 6, vector := v.extractLsb' 8 10, func := v.extractLsb' 18 6 } ∧
          t = { s with cqs := t.cqs } ∧ (∀ p, p ≠ q.val → t.cq p = s.cq p))) ∧
     (x.state = .active → v.getLsbD 0 = false →
        exec (.cqEnable o q v) s = .next (s.setCq q.val { x with state := .draining, enable := false, pending := false })) ∧
     (x.state = .draining → x.waiting = [] → x.pending = false →
        exec (.queueDrainEnd true q) s = .next (s.setCq q.val { x with state := .disabled }))))

/-- Where the module is ready, the queue is ACTIVE with slots to fetch, none of which waits at its home (R216), and its first read or a re-read is due: a reading whose image meets every condition of the seal is taken (HEAD past its slots, the next SEQ one more, the command at
the end of the fetched ones); one that does not is read again, and the reading after the 32nd re-read puts the queue in ERROR with the cause TORN; poison or unreachable slots put it in ERROR at once. -/
def Obligations.FetchingCommands : Prop :=
  ∀ (s : State) (q : QId) (hw : List HostByte), s.live = true → s.glb.ready = true → (s.sq q.val).state = .active →
    (s.sq q.val).tail ≠ (s.sq q.val).head →
    let r := readCommand q.val (hostStores hw s)
    r.2.eng.stalled = false →
    let leads (n : Nat) (c : Instr) : Prop :=
      (∀ b, r.1 = .taken b → Answers (exec c s) (fun t =>
        (t.sq q.val).head = (r.2.sq q.val).head + BitVec.ofNat 32 (b.length / 64) ∧
        (t.sq q.val).nextSeq = (r.2.sq q.val).nextSeq + 1 ∧ (t.sq q.val).retries = none ∧
        (t.sq q.val).fetched.map (·.bytes) = (r.2.sq q.val).fetched.map (·.bytes) ++ [b] ∧
        t.uidNext = r.2.uidNext + 1 ∧ t.pool = r.2.pool)) ∧
      (∀ opc e, r.1 = .torn opc e → n < 32 →
        exec c s = .next (r.2.setSq q.val { r.2.sq q.val with retries := some (n + 1) })) ∧
      (∀ opc e, r.1 = .torn opc e → 32 ≤ n → (r.2.sq q.val).state = .active →
        Answers (exec c s) (fun t => (t.sq q.val).state = .error ∧ (t.sq q.val).err = .torn ∧ (t.sq q.val).head = (r.2.sq q.val).head)) ∧
      (r.1 = .poison → (r.2.sq q.val).state = .active →
        exec c s = .next (r.2.setSq q.val { r.2.sq q.val with state := .error, err := .ringPoison, retries := none })) ∧
      (r.1 = .unreachable → (r.2.sq q.val).state = .active →
        exec c s = .next (r.2.setSq q.val { r.2.sq q.val with state := .error, err := .ringUnreachable, retries := none }))
    ((s.sq q.val).retries = none → leads 0 (.sqFetch q hw)) ∧
    (∀ n, (s.sq q.val).retries = some n → leads n (.sqFetchRetry q hw))

/-- Where the order rules let the next fetched command of a queue start, it takes one of the queue's 64 places; a command that is refused ends at once with its status, one of an unknown opcode with ST_ILLEGAL, and one that may run stays among the started ones, in the order in which FEATURE_NEGOTIATE, CONTEXT_CREATE and QUERY of DRV_ACCEPT act where it is one of them (R405). The first waiting entry of a CQ with room, whose write meets no fence and no
unreachable memory, is written as 32 bytes at TAIL with the phase of its pass, in host memory bytes 4 to 31 before bytes 0 to 3, TAIL advances by one, the entry no longer waits and its command's place is given back; no interrupt goes out where IRQMODE is 0, or where neither IRQALL nor the command's IRQ flag nor a status other than ST_OK asks for one. -/
def Obligations.StartingAndPosting : Prop :=
  (∀ (s : State) (q : QId) (c : Cmd) (rest : List Cmd), s.live = true → (s.sq q.val).fetched = c :: rest →
    mayStart q.val c s = true →
    let x := s.sq q.val
    let s1 := trace 0 0 (q.val + 2 ^ 16 * c.opc + 2 ^ 32 * c.seq)
      (pmcAdd 0 5 1 (joinDrv q.val c (s.setSq q.val { x with fetched := rest, started := x.started ++ [c], places := x.places + 1 })))
    (startRefusal q.val c s1 = none → exec (.commandStart q) s = .next s1) ∧
    (∀ st d, startRefusal q.val c s1 = some (st, d) → exec (.commandStart q) s = .next (completeCmd q.val c.uid st d 0 s1)) ∧
    (knownOpc c.opc = false → exec (.commandStart q) s = .next (completeCmd q.val c.uid .illegal 1 0 s1))) ∧
  (∀ (s : State) (q : QId) (e : Entry) (rest : List Entry), s.live = true →
    ((s.cq q.val).state = .active ∨ (s.cq q.val).state = .draining) → (s.cq q.val).waiting = e :: rest →
    let x := s.cq q.val
    let n := 16 * 2 ^ x.l.toNat
    (x.tail - x.head).toNat ≠ n →
    let s1 := s.setCq q.val { x with waiting := rest }
    let at_ := x.base.toNat * 4096 + 32 * (x.tail.toNat % n)
    let p := ringPort (x.base.toNat * 4096) x.func.toNat
    let b := entryBytes e (if x.tail.toNat / n % 2 = 0 then 1 else 0)
    let first := memWrite p (at_ + 4) (clean (b.drop 4)) s1
    let last := memWrite p at_ (clean (b.take 4)) first.2
    let w := if at_ < 0x100000000000 then memWrite p at_ (clean b) s1 else (first.1.and last.1, last.2)
    w.2.eng.stalled = false → w.1.unreach = false → w.1.dies = 0 →
    Answers (exec (.cqPost q) s) (fun t =>
      t.cqs = (w.2.setCq q.val { w.2.cq q.val with tail := (w.2.cq q.val).tail + 1 }).cqs ∧ t.pool = w.2.pool ∧
      t.sqs = (if e.placed then w.2.modSq e.sq.val (fun y => { y with places := y.places - 1 }) else w.2).sqs ∧
      ((x.irqmode = 0 ∨ (x.irqall = false ∧ e.irq = false ∧ e.status = .ok)) →
        t.out = w.2.out ∧ t.cores = w.2.cores ∧ t.pcie = w.2.pcie)))

/-- A started NOP completes: it is no longer started and an entry with its status ST_OK, opcode, SEQ, HEAD and the hub's TEL count waits in the CQ (none with NOCQE_OK, whose place is given back at once). FENCE and SIGNAL do so once every earlier command of the queue
has completed and until then wait; SIGNAL also sends its increment to the object that its local reference names. WAIT sends its wait to the object's home and is under way; where it has a TIMEOUT, that ends it with ST_TIMEOUT and takes the
wait off its object. Where a lookup reads memory, it reads memory that does not wait at its home (R216).
In a context that is not DRAINING, a LAUNCH with its arguments inline whose mask names one or more tiles, none of them withdrawn or of a fenced die, whose ENTRY is a multiple of 8 and whose argument block fits, adds one kernel with the fields of the command and of its context, at the end of the waiting
kernels of each tile named and of no other. An empty mask is ST_ILLEGAL 0x05 and an ENTRY out of alignment ST_ILLEGAL 0x02. -/
def Obligations.CommandsCompleteAndLaunch : Prop :=
  ((∀ s q n c, Begun s q n 0x00 c → (s.cq (s.sq q.val).cq.toNat).state ≠ .error → Sparse.wf {} s.sqs = true →
    let x := s.sq q.val
    Answers (exec (.nopCmd q n) s) (fun t =>
      (t.sq q.val).started = x.started.filter (fun y => y.uid != n) ∧
      (t.sq q.val).places = (if c.nocqeOk then x.places - 1 else x.places) ∧
      (t.cq x.cq.toNat).waiting = (s.cq x.cq.toNat).waiting ++
        (if c.nocqeOk then []
         else [{ sq := q, status := .ok, opc := 0x00, seq := BitVec.ofNat 32 (leAt c.bytes 4 4), head := c.head, detail := 0,
                 result := 0, irq := c.irq, time := s.hub.tel, placed := true }]) ∧
      t.pool = s.pool ∧ t.sync = s.sync ∧ t.ctxs = s.ctxs ∧ t.tiles = s.tiles ∧ t.kernels = s.kernels)) ∧
  (∀ s q n c, Begun s q n 0x01 c →
    ((∀ y ∈ (s.sq q.val).started, n ≤ y.uid) → exec (.fenceCmd q n) s = .next (completeCmd q.val n .ok 0 0 s)) ∧
    ((∃ y ∈ (s.sq q.val).started, y.uid < n) → exec (.fenceCmd q n) s = .next s)) ∧
  (∀ s q n c vid p, Begun s q n 0x02 c → refOf (leAt c.bytes 16 8) = .loc vid → (∀ y ∈ (s.sq q.val).started, n ≤ y.uid) →
    let r := objLookup 0 c.ctx vid .signal s
    r.1 = .ok p → r.2.eng.stalled = false → exec (.signalCmd q n) s = .next (completeCmd q.val n .ok 0 0 { r.2 with
      sync := { r.2.sync with sigs := r.2.sync.sigs ++ [⟨p, BitVec.ofNat 32 (leAt c.bytes 24 4), none⟩] } })) ∧
  (∀ s q n c vid p, Begun s q n 0x03 c → refOf (leAt c.bytes 16 8) = .loc vid →
    let r := objLookup 0 c.ctx vid .wait s
    r.1 = .ok p → r.2.eng.stalled = false → exec (.waitCmd q n) s = .next { setPhase q.val n .running r.2 with
      sync := { r.2.sync with
        arrivals := r.2.sync.arrivals ++ [⟨p, BitVec.ofNat 32 (leAt c.bytes 24 4), .queue q n⟩] } }) ∧
  (∀ s q n c, UnderWay s q n 0x03 c → leAt c.bytes 28 4 ≠ 0 → Sparse.wf {} s.sqs = true →
    Answers (exec (.waitTimeout q n) s) (fun t =>
      startedCmd t q.val n = none ∧ (∀ w, w ∈ t.sync.waits ↔ w ∈ s.sync.waits ∧ w.who ≠ .queue q n) ∧
      t.sync.vals = s.sync.vals ∧ t.pool = s.pool))) ∧
  (∀ s q n c hw, Begun s q n 0x10 c → (s.ctx c.ctx).state ≠ .draining →
    let b := c.bytes
    let f := leAt b 36 1
    let m : BitVec 96 := BitVec.ofNat 96 (leAt b 40 12)
    let s1 := hostStores hw s
    (m ≠ 0 → (∀ t : TileId, m.getLsbD t.val = true → s.withdrawn t.val = false ∧ s.fenced (t.val / 24) = false) →
      leAt b 16 8 % 8 = 0 → leAt b 32 4 ≤ 65536 → f / 64 % 2 = 1 → leAt b 32 4 ≤ (c.len - 1) * 64 →
      Answers (exec (.launch q n hw) s) (fun t =>
        (∃ k, t.kernels = s1.kernels ++ [k] ∧ k.kid = s.kidNext ∧ k.sq = q ∧ k.uid = n ∧ k.ctx.val = c.ctx % 64 ∧
          k.entry.toNat = leAt b 16 8 ∧ k.args = (b.drop 64).take (leAt b 32 4) ∧ k.width = 8 * 2 ^ (f % 4) ∧
          k.nregs = 8 * (f / 4 % 8 + 1) ∧ k.ngroup = leAt b 38 2 + 1 ∧ k.tiles = m ∧ k.todo = m ∧ k.live = 0 ∧
          k.abort = none ∧ k.limit = (s.ctx c.ctx).limit.toNat ∧ k.legacy = (s.ctx c.ctx).legacy) ∧
        t.kidNext = s.kidNext + 1 ∧
        (∀ i : TileId, (t.tile i.val).waiting = (s.tile i.val).waiting ++ (if m.getLsbD i.val then [s.kidNext] else [])) ∧
        t.pool = s.pool ∧ t.sync = s.sync ∧ t.ctxs = s.ctxs)) ∧
    (m = 0 → exec (.launch q n hw) s = .next (completeCmd q.val n .illegal 0x05 0 s1)) ∧
    (m ≠ 0 → (∀ t : TileId, m.getLsbD t.val = true → s.withdrawn t.val = false) → leAt b 16 8 % 8 ≠ 0 →
      exec (.launch q n hw) s = .next (completeCmd q.val n .illegal 0x02 0 s1)))

/-- A COPY or FILL of 1 byte to 2⁴⁰, a WRITE_INLINE of the bytes its slots hold and a REDUCE_COPY with a legal operation, format, destination and length are under way; else they end with ST_ILLEGAL 0x02 (that a FILL of 0 or of more than 2⁴⁰ bytes is one of these, and that a REDUCE_COPY of length 0 runs, is the model's reading of R287, LOG 124). At the end of the transfer WRITE_INLINE and FILL have written their bytes or the
repeated pattern over the pieces of the destination's translation, a COPY over pieces that do not overlap has written what its source reads as, a REDUCE_COPY has combined what its source reads as with the units of HBM that its destination translates to, and each ends with the status of what it met, the last write to host memory without Relaxed Ordering (R303), what moved shown to the negative's data capture (R415), where none of its accesses waits at its home (R216, R340); a destination that does not translate
ends WRITE_INLINE and FILL with that status, and a REDUCE_COPY, like one that is not in HBM, with ST_ILLEGAL 0x02 before anything is written. -/
def Obligations.HubCopies : Prop :=
  (∀ s q n c, Begun s q n 0x20 c →
    (1 ≤ leAt c.bytes 32 8 → leAt c.bytes 32 8 ≤ 2 ^ 40 → exec (.copyCmd q n) s = .next (setPhase q.val n .running s)) ∧
    (leAt c.bytes 32 8 = 0 ∨ 2 ^ 40 < leAt c.bytes 32 8 → Illegal (.copyCmd q n) s q n 0x02)) ∧
  (∀ s q n c, Begun s q n 0x21 c →
    (1 ≤ leAt c.bytes 24 4 → leAt c.bytes 24 4 ≤ (c.len - 1) * 64 →
      exec (.writeInline q n) s = .next (setPhase q.val n .running s)) ∧
    (leAt c.bytes 24 4 = 0 ∨ (c.len - 1) * 64 < leAt c.bytes 24 4 → Illegal (.writeInline q n) s q n 0x02)) ∧
  (∀ s q n c, Begun s q n 0x22 c →
    (1 ≤ leAt c.bytes 32 8 → leAt c.bytes 32 8 ≤ 2 ^ 40 → exec (.fillCmd q n) s = .next (setPhase q.val n .running s)) ∧
    (leAt c.bytes 32 8 = 0 ∨ 2 ^ 40 < leAt c.bytes 32 8 → Illegal (.fillCmd q n) s q n 0x02)) ∧
  (∀ s q n c, Begun s q n 0x23 c →
    let op := leAt c.bytes 40 1 % 4
    let fmt := leAt c.bytes 40 1 / 4 % 8
    (leAt c.bytes 24 8 % 256 = 0 → leAt c.bytes 32 8 % 256 = 0 → (op = 0 ∧ fmt < 5 ∨ op < 3 ∧ (fmt = 3 ∨ fmt = 4)) →
      exec (.reduceCopy q n) s = .next (setPhase q.val n .running s)) ∧
    (op < 3 → fmt < 5 → leAt c.bytes 24 8 % 256 ≠ 0 ∨ leAt c.bytes 32 8 % 256 ≠ 0 → Illegal (.reduceCopy q n) s q n 0x02)) ∧
  (∀ s q n c hw opc, opc = 0x21 ∨ opc = 0x22 → UnderWay s q n opc c →
    let data : List Byte := if opc = 0x21 then (c.bytes.drop 64).take (leAt c.bytes 24 4)
      else (List.range (leAt c.bytes 32 8)).map (fun i => ((c.bytes.drop 24).take 8).getD (i % ((c.bytes.drop 24).take 8).length) 0)
    let x := xlatRange .hub c.ctx .store true (leAt c.bytes 16 8) data.length (hostStores hw s)
    s.eng.stalled = false →
    (x.1.2 = none →
      let w := writeXlated c.ctx x.1.1 (clean data) x.2
      w.2.eng.stalled = false → exec (.hubDmaComplete q n hw) s = .next (completeCmd q.val n (metStatus w.1).1 (metStatus w.1).2 0
        (capture 0 (leAt c.bytes 16 8) data (lastStrict x.2.out.length w.2)))) ∧
    (∀ e, x.1.2 = some e → x.2.eng.stalled = false →
      exec (.hubDmaComplete q n hw) s = .next (completeCmd q.val n (xresStatus e).1 (xresStatus e).2 0 x.2))) ∧
  (∀ s q n c hw, UnderWay s q n 0x20 c →
    let len := leAt c.bytes 32 8
    let a := xlatRange .hub c.ctx .load false (leAt c.bytes 16 8) len (hostStores hw s)
    let b := xlatRange .hub c.ctx .store true (leAt c.bytes 24 8) len a.2
    a.1.2 = none → b.1.2 = none → (∀ p ∈ b.1.1, ∀ x ∈ a.1.1, overlap p.pa p.len x.pa x.len = false) →
    let r := readXlated c.ctx a.1.1 b.2
    let w := writeXlated c.ctx b.1.1 r.1.data r.2
    s.eng.stalled = false → w.2.eng.stalled = false →
    let m := r.1.met.and w.1
    let st := metStatus { m with poison := m.poison || anyPoison r.1.data }
    exec (.hubDmaComplete q n hw) s = .next (completeCmd q.val n st.1 st.2 0
      (capture 0 (leAt c.bytes 24 8) (plain r.1.data) (lastStrict b.2.out.length w.2)))) ∧
  (∀ s q n c hw op fmt, UnderWay s q n 0x23 c → redOf (leAt c.bytes 40 1 % 4) (leAt c.bytes 40 1 / 4 % 8) = some (op, fmt) →
    let len := leAt c.bytes 32 8
    let a := xlatRange .hub c.ctx .load false (leAt c.bytes 16 8) len (hostStores hw s)
    let b := xlatRange .hub c.ctx .reduction true (leAt c.bytes 24 8) len a.2
    s.eng.stalled = false → b.2.eng.stalled = false →
    (a.1.2 = none → b.1.2 = none → (∀ p ∈ b.1.1, hbmVisible p.pa = true) →
      let r := readXlated c.ctx a.1.1 b.2
      let w := b.1.1.foldl (fun (acc : Met × State) p =>
        let w := memReduce (enginePort acc.2 c.ctx p.coh) op fmt p.pa ((r.1.data.drop p.off).take p.len) acc.2
        (acc.1.and w.1, w.2)) (({} : Met), r.2)
      w.2.eng.stalled = false →
      exec (.hubDmaComplete q n hw) s =
        .next (completeCmd q.val n (metStatus (r.1.met.and w.1)).1 (metStatus (r.1.met.and w.1)).2 0 w.2)) ∧
    ((b.1.2.isSome = true ∨ ∃ p ∈ b.1.1, hbmVisible p.pa = false) →
      exec (.hubDmaComplete q n hw) s = .next (completeCmd q.val n .illegal 0x02 0 b.2)))

/-- A MAP_RANGE or UNMAP_RANGE that the tables allow completes with ST_OK after writing its leaves, and after it no TLB of the module holds a translation of the context that overlaps the range. TLB_INVALIDATE of scope 0, 1 and 3 leaves in every TLB exactly
the entries outside its range, of other contexts, or none, and of scope 2 in the object caches exactly the entries outside its identifiers; first, where none waits, it performs the stores that threads of the contexts have buffered (R231), of scope 2 the signals under way (R260), where no die in test mode keeps one from its home, and it changes no other memory. MAP_RANGE and UNMAP_RANGE perform those stores likewise before they write (R227), and wait while an access translated earlier is under way. -/
def Obligations.TranslationCommands : Prop :=
  let kept (s t : State) (p : TlbEntry → Bool) : Prop :=
    t.hub.tlb = s.hub.tlb.filter p ∧ (∀ k, (t.die k).tlb = (s.die k).tlb.filter p) ∧ (∀ k, (t.tile k).tlb = (s.tile k).tlb.filter p)
  let clean_ (t : State) (c va len : Nat) : Prop :=
    let out (e : TlbEntry) : Prop := ¬(e.ctx.val = c ∧ overlap e.vbase e.size va len = true)
    (∀ e ∈ t.hub.tlb, out e) ∧ (∀ k, ∀ e ∈ (t.die k).tlb, out e) ∧ (∀ k, ∀ e ∈ (t.tile k).tlb, out e)
  (∀ s q n c, Begun s q n 0x40 c → mapRefusal c s = none → (mapFeature c s).1 = .ok →
    let b := c.bytes
    let f := leAt b 40 1
    let size := 65536 * (if f % 4 = 0 then 1 else if f % 4 = 1 then 32 else 16384)
    let r := leafSlots c.ctx (f % 4) size (leAt b 32 8 / size) (leAt b 16 8) s
    ∀ slots, r.1 = .ok slots →
      let s1 := forEach ((List.range slots.length).zip slots) (fun e s =>
        writeLeaf e.2 (leAt b 24 8 + e.1 * size + (3 + 4 * (f / 4 % 16) + 2 ^ 56 * leAt b 41 1)) s) (performStores (· == c.ctx) r.2)
      (accessesOut (· == c.ctx) r.2 = true → s.eng.stalled = false → exec (.mapRange q n) s = .next s) ∧
      (accessesOut (· == c.ctx) r.2 = false → s1.eng.stalled = false →
      Answers (exec (.mapRange q n) s) (fun t =>
        t = completeCmd q.val n .ok 0 0 (purgeRange c.ctx (leAt b 16 8) (leAt b 32 8) s1) ∧ t.pool.hbm = s1.pool.hbm ∧
        (Sparse.wf {} s1.tiles = true → Sparse.wf {} s1.dies = true → clean_ t c.ctx (leAt b 16 8) (leAt b 32 8))))) ∧
  (∀ s q n c, Begun s q n 0x41 c →
    let va := leAt c.bytes 16 8
    let len := leAt c.bytes 32 8
    (s.ctx c.ctx).safelight = false → len ≠ 0 → va + len ≤ 2 ^ 52 →
    let r := validLeaves c.ctx va (va + len) (len / 65536 + 2) va s
    ∀ l, r.1 = .ok l →
      let s1 := forEach l (fun e s => writeLeaf e.1 (e.2 - 1) s) (performStores (· == c.ctx) r.2)
      (accessesOut (· == c.ctx) r.2 = true → s.eng.stalled = false → exec (.unmapRange q n) s = .next s) ∧
      (accessesOut (· == c.ctx) r.2 = false → s1.eng.stalled = false →
      Answers (exec (.unmapRange q n) s) (fun t =>
        t = completeCmd q.val n .ok 0 0 (purgeRange c.ctx va len s1) ∧ t.pool.hbm = s1.pool.hbm ∧
        (Sparse.wf {} s1.tiles = true → Sparse.wf {} s1.dies = true → clean_ t c.ctx va len)))) ∧
  (∀ s q n c, Begun s q n 0x42 c → Sparse.wf {} s.tiles = true → Sparse.wf {} s.dies = true →
    let a := leAt c.bytes 24 8
    let len := leAt c.bytes 32 8
    let mine (x : Nat) : Bool := c.scope == 3 || x == c.ctx
    let s1 := if c.scope = 2 then performSignals s else performStores mine s
    (c.scope = 2 ∨ accessesOut mine s = false) → (c.scope = 2 → ∀ g ∈ s.sync.sigs, g.held s = false) → s1.eng.stalled = false → Sparse.wf {} s1.sqs = true →
    let done (u t : State) : Prop :=
      (c.scope = 0 → kept u t (fun e => !(e.ctx.val == c.ctx && overlap e.vbase e.size a len))) ∧
      (c.scope = 1 → kept u t (fun e => e.ctx.val != c.ctx)) ∧
      (c.scope = 3 → kept u t (fun _ => false)) ∧
      (c.scope = 2 → kept u t (fun _ => true) ∧
        t.hub.objs = u.hub.objs.filter (fun e => !(e.ctx.val == c.ctx && decide (a ≤ e.vid) && decide (e.vid < a + len))))
    Answers (exec (.tlbInvalidate q n) s) (fun t =>
      startedCmd t q.val n = none ∧ t.pool = s1.pool ∧ t.sync = s1.sync ∧ done s1 t ∧ (c.scope = 2 → t.sync.sigs = []) ∧
      ((c.scope = 2 ∧ s.sync.sigs = [] ∨ c.scope ≠ 2 ∧ ∀ k ∈ tilesOfCtx mine s, (s.tile k).merge = []) →
        t.pool = s.pool ∧ t.sync = s.sync ∧ done s t)))

/-- QUERY completes with the item's value as RESULT: 0 the low word of DEV_FEATURES, 2 DRV_ACCEPT, 1 and 3 zero, 4 the hub's TEL count, 5 and 6 the fault registers of the context; another item is ST_ILLEGAL 0x01. The commands that read or write DRV_ACCEPT act in their turn, in the order of their start (R405), and wait for it. FEATURE_NEGOTIATE, unlocked, sets DRV_ACCEPT to the features asked for that DEV_FEATURES
offers and completes with ST_OK where that is all of them; locked it is ST_FEATURE with DETAIL 0x100. POWER_BUDGET outside any group, with GROUP_W 0, sets CAP and WINDOW in their range, and out of range is ST_ILLEGAL 0x02. -/
def Obligations.QueriesFeaturesAndBudgets : Prop :=
  (∀ s q n c, Begun s q n 0x50 c →
    let item := leAt c.bytes 16 1
    let v : Nat := match item with
      | 0 => (devFeatures s).toNat
      | 2 => s.glb.drvAccept.toNat
      | 4 => s.hub.tel.toNat
      | 5 => (s.ctx c.ctx).fault.toNat
      | 6 => (s.ctx c.ctx).objFault.toNat
      | _ => 0
    (item ≤ 6 → (item = 2 ∨ item = 3 → drvTurn q.val n s = true) → exec (.query q n) s = .next (completeCmd q.val n .ok 0 v s)) ∧
    (item = 2 ∨ item = 3 → drvTurn q.val n s = false → exec (.query q n) s = .next s) ∧
    (6 < item → Illegal (.query q n) s q n 0x01)) ∧
  (∀ s q n c, Begun s q n 0x51 c → drvTurn q.val n s = false → exec (.featureNegotiate q n) s = .next s) ∧
  (∀ s q n c, Begun s q n 0x51 c → Sparse.wf {} s.sqs = true → drvTurn q.val n s = true →
    let req := leAt c.bytes 16 16
    let got := req &&& (devFeatures s).toNat
    (s.glb.locked = false → Answers (exec (.featureNegotiate q n) s) (fun t =>
      t.glb = { s.glb with drvAccept := BitVec.ofNat 8 got } ∧ startedCmd t q.val n = none ∧ t.pool = s.pool ∧
      (got = req → t = completeCmd q.val n .ok 0 got { s with glb := t.glb }))) ∧
    (s.glb.locked = true →
      exec (.featureNegotiate q n) s = .next (completeCmd q.val n .feature 0x100 s.glb.drvAccept.toNat s))) ∧
  (∀ s q n c, Begun s q n 0x60 c → s.pwr.group = none → s.pwr.leave = [] → leAt c.bytes 20 4 = 0 →
    let cap := leAt c.bytes 16 2
    let win := leAt c.bytes 18 2
    (700 ≤ cap → cap ≤ 1800 → 1000 ≤ win → win ≤ 10000 → Answers (exec (.powerBudget q n) s) (fun t =>
      t.pwr.cap = cap ∧ t.pwr.window = win ∧ t.pwr.group = none ∧ t.pwr.lcap = s.pwr.lcap ∧
      t = completeCmd q.val n .ok 0 0 { s with pwr := t.pwr })) ∧
    (cap < 700 ∨ 1800 < cap ∨ win < 1000 ∨ 10000 < win → Illegal (.powerBudget q n) s q n 0x02))

/-- A legal CONTEXT_CREATE of a FREE context makes it ACTIVE with the tables, function, seed, rounding and limits of the command, a new generation and the driver's epoch, locks DRV_ACCEPT (but for the control complex, which creates context 63 alone and in MANUFACTURE or RETURNED only; that another of its creates is ST_ILLEGAL 0x04 is the model's choice, LOG 165), leaves every other context, and completes; before its turn it waits (R405). CONTEXT_DESTROY puts the context in DRAINING with no arm slot enabled and disables its windows. Once
all its commands and kernels are complete the context becomes FREE without tables and not exposed, the destroy completes, no TLB holds a translation of it (the model's reading, LOG 45), and after the destroy of a function-level reset its writable memory reads 0. -/
def Obligations.ContextsComeAndGo : Prop :=
  (∀ s q n c, Begun s q n 0x70 c → (s.ctx c.ctx).state = .free → createRefusal c.bytes s = none → Sparse.wf {} s.sqs = true →
    drvTurn q.val n s = true →
    ((s.sq q.val).byZoilo = true → c.ctx = 63 ∧ (s.fuses.lcState = 1 ∨ s.fuses.lcState = 4)) →
    let b := c.bytes
    let f := leAt b 16 1
    Answers (exec (.contextCreate q n) s) (fun t =>
      let x := t.ctx c.ctx
      x.state = .active ∧ x.gen = (s.ctx c.ctx).gen + 1 ∧ x.rnd = BitVec.ofNat 2 (f / 2 % 4) ∧ x.legacy = f.testBit 3 ∧
      x.func = BitVec.ofNat 6 (leAt b 17 1) ∧ x.seed.toNat = leAt b 40 8 ∧ x.epoch = s.glb.epoch ∧ x.rootV = true ∧
      x.safelight = f.testBit 0 ∧ x.root = BitVec.ofNat 36 (leAt b 24 8 / 4096) ∧ x.objV = decide (leAt b 20 1 ≠ 0) ∧
      x.limit = (if f.testBit 4 then BitVec.ofNat 15 (leAt b 18 2) else 16) ∧ x.arms = (s.ctx c.ctx).arms ∧ x.fault = 0 ∧ x.objFault = 0 ∧
      t.glb = { s.glb with locked := s.glb.locked || !(s.sq q.val).byZoilo } ∧ (∀ k, k ≠ c.ctx → t.ctx k = s.ctx k) ∧ startedCmd t q.val n = none ∧
      t.pool = s.pool ∧ t.sync = s.sync)) ∧
  (∀ s q n c, Begun s q n 0x70 c → drvTurn q.val n s = false → exec (.contextCreate q n) s = .next s) ∧
  (∀ s q n c, Begun s q n 0x70 c → (s.ctx c.ctx).state = .free → drvTurn q.val n s = true → (s.sq q.val).byZoilo = true →
    ¬(c.ctx = 63 ∧ (s.fuses.lcState = 1 ∨ s.fuses.lcState = 4)) → Illegal (.contextCreate q n) s q n 0x04) ∧
  (∀ s q n c, Begun s q n 0x71 c → (s.ctx c.ctx).state = .active ∨ (s.ctx c.ctx).state = .preempted →
    Sparse.wf {} s.windows = true → Answers (exec (.contextDestroy q n) s) (fun t =>
    (t.ctx c.ctx).state = .draining ∧ (∀ a, (Sparse.read {} (t.ctx c.ctx).arms a).enable = false) ∧ (t.ctx c.ctx).destroy = some (q, n) ∧
    (t.ctx c.ctx).root = (s.ctx c.ctx).root ∧
    (∀ w, (s.window w).ctx.toNat = c.ctx → (t.window w).enable = false) ∧
    (∀ w, (s.window w).ctx.toNat ≠ c.ctx → t.window w = s.window w))) ∧
  (∀ (s : State) (c : CtxId), s.live = true → (s.ctx c.val).state = .draining → ctxIdle s c.val = true →
    (s.ctx c.val).pending = none → Sparse.wf {} s.ctxs = true → Sparse.wf {} s.sqs = true → Sparse.wf {} s.tiles = true →
    Sparse.wf {} s.dies = true →
    Answers (exec (.contextDrainEnd c) s) (fun t =>
      (t.ctx c.val).state = .free ∧ (t.ctx c.val).rootV = false ∧ (t.ctx c.val).objV = false ∧ (t.ctx c.val).destroy = none ∧
      t.glb.exposed.getLsbD c.val = false ∧
      (∀ p m, (s.ctx c.val).destroy = some (p, m) → startedCmd t p.val m = none) ∧
      (∀ e ∈ t.hub.tlb, e.ctx ≠ c) ∧ (∀ k, ∀ e ∈ (t.tile k).tlb, e.ctx ≠ c) ∧ (∀ k, ∀ e ∈ (t.die k).tlb, e.ctx ≠ c) ∧
      ((s.ctx c.val).wipe = false → t.pool = s.pool) ∧
      ((s.ctx c.val).wipe = true → ∀ l ∈ (ctxTree s c.val).leaves, l.2.2 = true → hbmVisible l.1 = true →
        ∀ pa, l.1 ≤ pa → pa < l.1 + l.2.1 → hbmVisible pa = true → s.fenced (dieOfStack (s.home pa).1) = false →
          Mem.byte t.pool.hbm pa = 0)))

/-- A legal CONTEXT_PREEMPT of an ACTIVE context with a kernel on the tiles named waits for it; without one, where no write of its records waits at its home (R216, R340), it makes the context PREEMPTED with its mask and completes, and the scratchpads of the tiles read 0. When WAIT_US expires, the command ends with ST_TIMEOUT and the preemption is withdrawn, or, where it forces, every kernel of
the context on those tiles is aborted with ST_PREEMPTED. A CONTEXT_RESUME of a PREEMPTED context with the same mask and a legal save area, with no kernel of another context on the tiles and no access of its records waiting, makes the context ACTIVE and completes. -/
def Obligations.ContextsPreemptAndResume : Prop :=
  (∀ s q n c, Begun s q n 0x72 c → (leAt c.bytes 16 1) % 2 = 0 → (s.ctx c.ctx).state = .active → (s.ctx c.ctx).preempt = none →
    (s.ctx c.ctx).resetWaits = false → preemptRefusal c s = none →
    let m : BitVec 96 := BitVec.ofNat 96 (leAt c.bytes 32 12)
    let s1 := (setPhase q.val n .running s).modCtx c.ctx (fun x => { x with
      preMask := m, preSave := leAt c.bytes 24 8, preempt := some ⟨q, n⟩ })
    (ctxRunsOn s c.ctx m = true → exec (.contextPreempt q n) s = .next s1) ∧
    (ctxRunsOn s c.ctx m = false → (preemptEnd c.ctx s1).eng.stalled = false → Sparse.wf {} s.tiles = true → Sparse.wf {} s.sqs = true →
      Answers (exec (.contextPreempt q n) s) (fun t =>
        (t.ctx c.ctx).state = .preempted ∧ (t.ctx c.ctx).preMask = m ∧ (t.ctx c.ctx).preempt = none ∧
        startedCmd t q.val n = none ∧
        (∀ i : TileId, m.getLsbD i.val = true → ∀ a, Mem.byte (t.tile i.val).scratch a = 0)))) ∧
  (∀ s q n c, UnderWay s q n 0x72 c → (s.ctx c.ctx).preempt = some ⟨q, n⟩ → leAt c.bytes 20 4 ≠ 0 →
    (s.ctx c.ctx).resetWaits = false →
    (leAt c.bytes 16 1 / 2 % 2 = 0 → exec (.preemptTimeout q n) s = .next (completeCmd q.val n .timeout 0 0
      (s.modCtx c.ctx (fun x => { x with preempt := none, preMask := 0, preSave := 0 })))) ∧
    (leAt c.bytes 16 1 / 2 % 2 = 1 → Answers (exec (.preemptTimeout q n) s) (fun t =>
      ∀ k, s.kernel? k.kid = some k → k.ctx.val = c.ctx → k.live &&& (s.ctx c.ctx).preMask ≠ 0 → k.abort = none →
        ∀ k', t.kernel? k.kid = some k' → k'.abort = some (.preempted, 0)))) ∧
  (∀ s q n c, Begun s q n 0x72 c → (leAt c.bytes 16 1) % 2 = 1 → Sparse.wf {} s.sqs = true → Sparse.wf {} s.ctxs = true →
    let m : BitVec 96 := BitVec.ofNat 96 (leAt c.bytes 32 12)
    (s.ctx c.ctx).state = .preempted → m = (s.ctx c.ctx).preMask → saveAreaOk (leAt c.bytes 24 8) m = true → otherRunsOn s c.ctx m = false →
    (resumeOp q.val n c s).eng.stalled = false →
    Answers (exec (.contextResume q n) s) (fun t =>
      (t.ctx c.ctx).state = .active ∧ (t.ctx c.ctx).preMask = 0 ∧ (t.ctx c.ctx).preSave = 0 ∧ startedCmd t q.val n = none))

/-- PERST# low for 1 µs or more, hot reset, link-down and surprise removal take the link down, reset Bus Master Enable, VF Enable, the BARs and the other settings, D3hot and the MSI-X tables of every function, count one link-down, and put every ACTIVE queue whose ring lies in host memory in ERROR; every other queue, the contexts, tiles and kernels stay. A shorter pulse and recovery change nothing; the level of PERST# counts whether the module runs or not. Link-up, with PERST# released and the PLL
locked, brings the link up in its mode. Bus Master cleared counts as a link-down for its function and stops its queues with rings in host memory. An accepted configuration request sets Bus Master Enable, leaves D3hot, sets the size of BAR2 (R272) or sets VF Enable and NumVFs; one that comes while the module is not ready is answered by retry. What was latched behind the drains of VFs is void and one link-down is counted (LOG 47), the level of PERST# of a module that does not run and the short pulse (LOG 162), and the other configuration settings, the error status cleared as written (LOG 153), are the model's readings. -/
def Obligations.HostLink : Prop :=
  (∀ s : State, s.powered = true → Sparse.wf {} s.sqs = true → Sparse.wf {} s.cqs = true →
    let down (perst : Bool) (t : State) : Prop :=
      t.pcie = { s.pcie.voidVfs with
        linkUp := false, cxl := false, bme := 0, d3 := 0, failed := 0, numVfs := 0, msix := [], pba := [], cfg := [], perst := perst } ∧
      t.pcie.vfEnable = false ∧
      t.glb = { s.glb with hostLost := true, linkdowns := satAdd s.glb.linkdowns 1 } ∧
      (∀ q, let x := s.sq q
        t.sq q = if x.state = .active ∧ 0x100000000000 ≤ x.base.toNat * 4096
          then { x with state := .error, err := .ringUnreachable, retries := none } else x) ∧
      (∀ q, let x := s.cq q
        t.cq q = if x.state = .active ∧ 0x100000000000 ≤ x.base.toNat * 4096
          then { x with state := .error, err := .ringUnreachable } else x) ∧
      t.ctxs = s.ctxs ∧ t.tiles = s.tiles ∧ t.kernels = s.kernels
    (s.pcie.linkUp = true → (s.pcie.perst = false → ∀ ns, 1000 ≤ ns → Answers (exec (.perst ⟨false, ns⟩) s) (down true)) ∧
      Answers (exec .hotReset s) (down s.pcie.perst) ∧ Answers (exec .linkDown s) (down s.pcie.perst) ∧
      Answers (exec .surpriseRemoval s) (down s.pcie.perst)) ∧
    exec .linkRecovery s = .next s ∧
    (∀ cxl, s.linkRuns = true → s.pcie.perst = false → s.pwr.pciePll = true →
      exec (.linkUp cxl) s = .next { s with pcie := { s.pcie with linkUp := true, cxl := cxl } })) ∧
  (∀ (s : State) (ns : Nat),
    exec (.perst ⟨true, ns⟩) s = .next { s with pcie := { s.pcie with perst := false } } ∧
    (ns < 1000 → exec (.perst ⟨false, ns⟩) s = .next s) ∧
    (s.powered = false → 1000 ≤ ns → exec (.perst ⟨false, ns⟩) s = .next { s with pcie := { s.pcie with perst := true } })) ∧
  (∀ (s : State) (f : FuncId), s.live = true → Sparse.wf {} s.sqs = true → s.pcie.bme.getLsbD f.val = true →
    Answers (exec (.hostUnreachable f .busMasterClear) s) (fun t =>
      t.pcie.bme.getLsbD f.val = false ∧ (∀ g : FuncId, g ≠ f → t.pcie.bme.getLsbD g.val = s.pcie.bme.getLsbD g.val) ∧
      t.glb = { s.glb with hostLost := true, linkdowns := satAdd s.glb.linkdowns 1 } ∧
      (∀ q, let x := s.sq q
        t.sq q = if x.state = .active ∧ 0x100000000000 ≤ x.base.toNat * 4096 ∧ x.func.toNat = f.val
          then { x with state := .error, err := .ringUnreachable, retries := none } else x))) ∧
  (∀ (s : State) (f : FuncId), s.linkRuns = true → s.pcie.linkUp = true →
    (s.live = false ∨ s.glb.ready = false → ∀ r, exec (.configurationRequest f r) s = .next { s with out := s.out ++ [.retryStatus f] }) ∧
    (s.live = true → s.glb.ready = true → s.pcie.drain.getLsbD f.val = false →
      Answers (exec (.configurationRequest f (.busMaster true)) s) (fun t =>
        t.pcie.bme.getLsbD f.val = true ∧ t.out = s.out ++ [.configDone f] ∧ t.sqs = s.sqs ∧ t.glb = s.glb) ∧
      Answers (exec (.configurationRequest f (.d3hot false)) s) (fun t =>
        t.pcie.d3.getLsbD f.val = false ∧ t.out = s.out ++ [.configDone f] ∧ t.sqs = s.sqs ∧ t.glb = s.glb) ∧
      (∀ v, Sparse.wf {} s.pcie.cfg = true → Answers (exec (.configurationRequest f (.aerClear v)) s) (fun t =>
        (Sparse.read {} t.pcie.cfg f.val).aerUncSt = (Sparse.read {} s.pcie.cfg f.val).aerUncSt &&& ~~~v ∧
        t.out = s.out ++ [.configDone f] ∧ t.sqs = s.sqs ∧ t.glb = s.glb)) ∧
      (∀ n : Fin 10, f = 0 → Sparse.wf {} s.pcie.cfg = true → Answers (exec (.configurationRequest f (.barSize n)) s) (fun t =>
        t.pcie.bar2Bytes = 2 ^ (30 + n.val) ∧ t.out = s.out ++ [.configDone f] ∧ t.sqs = s.sqs ∧ t.glb = s.glb)) ∧
      (∀ n : Fin 33, f = 0 → n ≠ 0 → s.pcie.vfEnable = false → Answers (exec (.configurationRequest f (.vfEnable n)) s) (fun t =>
        t.pcie.vfEnable = true ∧ t.pcie.numVfs = n.val ∧ t.out = s.out ++ [.configDone f] ∧ t.ctxs = s.ctxs))))

/-- A function-level reset, and a cleared VF Enable for each enabled VF, make the function drain and put every context bound to it in DRAINING, with the wipe after it; that of PF0 unlocks DRV_ACCEPT, and one requested while the function drains is remembered. When no context of the function drains, its drain ends; at the end of a function-level reset its MSI-X entries are cleared. CLAIM from an origin that may advances the epoch, skipping
0, and attaches the driver, DETACH detaches it, both at once are logged, ADOPT gives a context the present epoch. An unlocked write of DRV_ACCEPT0 keeps the features that DEV_FEATURES offers, a locked one is logged, whoever makes it. That a cleared VF Enable wipes, that a reset during the drain is latched and that MSI-X entries are cleared at the end is the model's reading (LOG 46). -/
def Obligations.FunctionsAndTheDriver : Prop :=
  (∀ (s : State) (f : FuncId), s.live = true → funcExists f.val s = true → s.pcie.drain.getLsbD f.val = true →
    exec (.functionLevelReset f) s = .next { s with pcie := { s.pcie with
      pend := setBit s.pcie.pend f.val true, pendFlr := setBit s.pcie.pendFlr f.val true } }) ∧
  (∀ (s : State) (f : FuncId), s.live = true → funcExists f.val s = true → s.pcie.drain.getLsbD f.val = false →
    Answers (exec (.functionLevelReset f) s) (fun t => t.pcie.drain.getLsbD f.val = true ∧ t.pcie.flr.getLsbD f.val = true ∧ t.pcie.bme.getLsbD f.val = false ∧
    t.pcie.d3.getLsbD f.val = false ∧ t.glb.locked = (s.glb.locked && f != 0) ∧
    (∀ c, (s.ctx c).func.toNat = f.val → (s.ctx c).state ≠ .free →
      (t.ctx c).state = .draining ∧ (t.ctx c).wipe = true))) ∧
  (∀ s : State, s.live = true → s.pcie.vfEnable = true → s.pcie.numVfs ≤ 32 → Answers (exec .vfEnableClear s) (fun t =>
    t.pcie.vfEnable = false ∧
    ∀ f, 1 ≤ f → f ≤ s.pcie.numVfs → t.pcie.drain.getLsbD f = true ∧
      ∀ c, (s.ctx c).func.toNat = f → (s.ctx c).state ≠ .free → (t.ctx c).state = .draining ∧ (t.ctx c).wipe = true)) ∧
  (∀ (s : State) (f : FuncId), s.live = true → s.pcie.pendFlr.getLsbD f.val = false → s.pcie.drain.getLsbD f.val = true →
    (∀ c ∈ boundCtxs s f.val, (s.ctx c).state ≠ .draining) → Answers (exec (.functionDrainEnd f) s) (fun t =>
      t.pcie.drain.getLsbD f.val = false ∧ t.pcie.pend.getLsbD f.val = false ∧ t.ctxs = s.ctxs ∧
      (s.pcie.flr.getLsbD f.val = false → t.sqs = s.sqs ∧ t.cqs = s.cqs ∧ t.pcie.msix = s.pcie.msix) ∧
      (s.pcie.flr.getLsbD f.val = true → t.pcie.flr.getLsbD f.val = false ∧
        ∀ k, msixBase f.val ≤ k → k < msixBase f.val + msixCount f.val → Sparse.find? t.pcie.msix k = none))) ∧
  (∀ (s : State) (o : Origin) (v : W64), s.live = true → originQueue o = true →
    (v.getLsbD 33 = true → v.getLsbD 34 = false → exec (.claim o v) s = .next { s with glb := { s.glb with
      epoch := if s.glb.epoch = BitVec.allOnes 32 then 1 else s.glb.epoch + 1, attached := true, hostLost := false } }) ∧
    (v.getLsbD 34 = true → v.getLsbD 33 = false →
      exec (.detach o v) s = .next { s with glb := { s.glb with attached := false } }) ∧
    (v.getLsbD 34 = true → v.getLsbD 33 = true → exec (.claim o v) s = .next (logReg 0x1008 (originReq o) s) ∧
      exec (.detach o v) s = .next (logReg 0x1008 (originReq o) s)) ∧
    (∀ c : CtxId, v.getLsbD 4 = true → (s.ctx c.val).state ≠ .free →
      exec (.adopt o c v) s = .next (s.setCtx c.val { s.ctx c.val with epoch := s.glb.epoch }))) ∧
  (∀ (s : State) (v : W64), s.live = true →
    (s.glb.locked = false → exec (.drvAcceptWrite .pf0 0 v) s =
      .next { s with glb := { s.glb with drvAccept := v.extractLsb' 0 8 &&& devFeatures s } }) ∧
    (s.glb.locked = true → ∀ (o : Origin) (h : Fin 2), originFull o = true → exec (.drvAcceptWrite o h v) s =
      .next (logReg (0x310 + 8 * h.val) (originReq o) s)))

/-- A legal collective of one rank without a signal, started on an idle sequencer from a descriptor that reads cleanly, copies COUNT bytes from SRC to DST and completes with ST_OK. A collective whose READY or DATA wait has returned goes on with its schedule; at its end, with nothing unanswered, it leaves the sequencer and completes, and, but for a REDUCE_SCATTER, the pool does not change. Step k of a ring over node links sends its chunk of DST (of SRC at the first reducing step), in frames of MAXPAY bytes at the chunk's offset, to the window of the next rank, as REDUCE_WRITEs where it reduces and as WRITEs where it gathers, and then a SIGNAL to that rank's DATA object. A TIMEOUT that expires, and the loss of a peer that its table names, take it
off the sequencer, complete its command, the one with ST_TIMEOUT and the other with ST_PEER_LOST, and send an ABORT naming the own or the lost node to every other rank. An ABORT remembered for 10 ms is forgotten. Each where none of its accesses waits at its home (R216, R340). -/
def Obligations.Collectives : Prop :=
  (∀ s q n c hw, Begun s q n 0x30 c → s.eng.colls = [] → s.eng.collQ = [] → s.eng.aborts = [] → Sparse.wf {} s.sqs = true →
    let r := engineRead c.ctx (leAt c.bytes 16 8) (leAt c.bytes 24 4) (hostStores hw s)
    let d := plain r.1.data
    r.1.st.1 = .ok → leAt c.bytes 24 4 = 96 → descIllegal d = none → dRanks d = 1 → 0x10 ≤ dOp d → dSigv d = false →
    (s.peer (rNode d 0)).lost = false →
    let cl : Coll := { q := q, uid := n, ctx := Fin.ofNat 64 c.ctx, id := dId d, desc := d, pc := 0, wait := none, sent := 0, st := (.ok, 0) }
    let s1 := setPhase q.val n .running r.2
    let s2 := { s1 with eng := { s1.eng with colls := [cl] } }
    let a := engineRead (c.ctx % 64) (dSrc d) (dCount d) s2
    let w := engineWrite (c.ctx % 64) (dDst d) a.1.data a.2
    a.1.fail = false → a.1.st = (.ok, 0) → w.1.fail = false → w.1.st = (.ok, 0) → w.2.eng.stalled = false →
    (∀ e ∈ w.2.net.peers, ∀ x ∈ e.2.reqs, x.owner ≠ .coll (dId d)) →
    Answers (exec (.collective q n hw) s) (fun t =>
      startedCmd t q.val n = none ∧ t.eng.colls = [] ∧ t.pool = w.2.pool ∧ t.hostMem = w.2.hostMem)) ∧
  (∀ (s : State) (id : W32) (hw : List HostByte) (c : Coll) (k : W32), s.live = true → s.coll? id = some c →
    (c.wait = some (.ready k) ∨ c.wait = some (.data k)) → collWaiting s id = false →
    (advanceColl id (hostStores hw s)).eng.stalled = false →
    exec (.collectiveWaitSatisfied id ⟨hw, .none⟩) s = .next (settleColls (advanceColl id (hostStores hw s))) ∧
    (c.pc = (schedule c.desc).length → c.st = (.ok, 0) → collOpen s id = false → dSigv c.desc = false → s.eng.collQ = [] →
      Sparse.wf {} s.sqs = true →
      Answers (exec (.collectiveWaitSatisfied id ⟨hw, .none⟩) s) (fun t =>
        t.coll? id = none ∧ startedCmd t c.q.val c.uid = none ∧ (dOp c.desc ≠ 0x11 → t.pool = s.pool) ∧ t.sync.vals = s.sync.vals))) ∧
  (∀ (s : State) (id : W32) (hw : List HostByte) (c : Coll) (k : Nat), s.live = true → s.coll? id = some c → collWaiting s id = false →
    s.eng.collQ = [] → s.eng.stalled = false → c.st.1 ≠ .peerLost → dSched c.desc = 0 →
    (advanceColl id (hostStores hw s)).eng.stalled = false →
    let d := c.desc
    let n := dRanks d
    let len := dCount d
    let nxt := (dRank d + 1) % n
    let size := 1024 * 2 ^ s.net.maxpay.toNat
    k + 1 < n → Reached s (rNode d nxt) →
    let sends (typ base j : Nat) : Prop :=
      let x := engineRead c.ctx.val (base + j * len) len ((hostStores hw s).modColl id (fun c => { c with wait := none }))
      x.1.fail = false → Answers (exec (.collectiveWaitSatisfied id ⟨hw, .none⟩) s) (fun t =>
        (∀ i, i * size < len → i * size < x.1.data.length → Asked t (rNode d nxt) typ (fun f =>
          f.dst = BitVec.ofNat 20 (rNode d nxt) ∧ f.win = BitVec.ofNat 12 (rWin d nxt) ∧ f.arg = BitVec.ofNat 64 (j * len + i * size) ∧
          f.payload = ((plain x.1.data).drop (i * size)).take size)) ∧
        Asked t (rNode d nxt) 0x03 (fun f => f.dst = BitVec.ofNat 20 (rNode d nxt) ∧ f.win = BitVec.ofNat 12 (rWin d nxt) ∧
          f.arg = BitVec.ofNat 64 (rData d nxt % 2 ^ 20 + 2 ^ 32)))
    (dOp d = 0x10 ∨ dOp d = 0x11 → c.pc = 3 + 3 * k →
      c.wait = some (if k = 0 then .ready 1 else .data (BitVec.ofNat 32 k)) →
      sends 0x04 (if k = 0 then dSrc d else dDst d) ((dRank d + n - 1 - k) % n)) ∧
    (dOp d = 0x10 → c.pc = 3 * n + 3 + 3 * k → c.wait = some (if k = 0 then .ready 2 else .data (BitVec.ofNat 32 (n - 1 + k))) →
      sends 0x01 (dDst d) ((dRank d + n - k) % n)) ∧
    (dOp d = 0x12 → c.pc = 3 + 3 * k → c.wait = some (if k = 0 then .ready 1 else .data (BitVec.ofNat 32 k)) →
      sends 0x01 (dDst d) ((dRank d + n - k) % n))) ∧
  (∀ (s : State) (id : W32) (hw : List HostByte) (c : Coll), s.live = true → s.coll? id = some c → dTimeout c.desc ≠ 0 →
    (failColl c (worse c.st (.timeout, 0)) (some s.net.nodeId.toNat) (hostStores hw s)).eng.stalled = false →
    s.eng.collQ = [] → Sparse.wf {} s.sqs = true →
    Answers (exec (.collectiveTimeout id hw) s) (fun t =>
      t.coll? id = none ∧ startedCmd t c.q.val c.uid = none ∧ t.sync.vals = s.sync.vals ∧
      (∀ i, i < dRanks c.desc → i ≠ dRank c.desc → Reached s (rNode c.desc i) →
        Asked t (rNode c.desc i) 0x0B (fun f => f.arg = BitVec.ofNat 64 s.net.nodeId.toNat ∧ f.arg2 = id)) ∧
      (c.st = (.ok, 0) → s.eng.stalled = false → ∃ u, t = completeCmd c.q.val c.uid .timeout 0 c.sent u))) ∧
  (∀ (s : State) (node : BitVec 20) (psn : W32) (i : Nat) (r : NetReq) (c : Coll), s.live = true → Sparse.wf {} s.sqs = true →
    let p := s.peer node.toNat
    p.reqs.findIdx? (fun x => x.psn.toNat == psn.toNat && !x.held) = some i → p.reqs[i]? = some r → s.net.retries.toNat ≤ r.tries →
    (∀ x ∈ p.reqs, x.owner = .coll c.id) → s.eng.colls = [c] → s.eng.collQ = [] → s.eng.save = none → s.eng.saveQ = [] →
    (∃ j, j < dRanks c.desc ∧ rNode c.desc j = node.toNat) → s.eng.stalled = false → (timeoutOp node.toNat psn.toNat s).eng.stalled = false →
    Answers (exec (.requestTimeout node psn) s) (fun t =>
      (t.peer node.toNat).lost = true ∧ t.eng.colls = [] ∧ startedCmd t c.q.val c.uid = none ∧
      (∀ j, j < dRanks c.desc → j ≠ dRank c.desc → rNode c.desc j ≠ node.toNat → Reached s (rNode c.desc j) →
        Asked t (rNode c.desc j) 0x0B (fun f => f.arg = BitVec.ofNat 64 node.toNat ∧ f.arg2 = c.id)) ∧
      (c.st = (.ok, 0) → ∃ u, t = completeCmd c.q.val c.uid .peerLost node.toNat c.sent u))) ∧
  (∀ (s : State) (id : W32), s.live = true →
    exec (.abortMemoryExpiry id) s =
      .next { s with eng := { s.eng with aborts := s.eng.aborts.filter (fun e => e.1 != id) } })

/-- A legal CHECKPOINT_SAVE on an idle engine, whose regions translate and whose buddies are other nodes with an NL quad that are not lost, runs with every block to be read, a WRITE of STATE = 0 into the manifest of slot GEN mod 2 of each buddy's window asked for, and, with FEAT_CKPT accepted, every piece protected. The read of its lowest block notes the CRC-64 of its bytes, ends the protection of pieces that no later block needs and sends the
block's bytes, in WRITEs of MAXPAY bytes behind the manifest's room in the slot, to the buddies. A write to a protected piece copies its block ahead, ends the protection and is performed. Each where no access waits for a stack's port (R216). A legal CHECKPOINT_RESTORE asks its first buddy, in READs of at most MAXPAY bytes, for both manifests at the bases of their slots. That protection counts pieces of 4 KiB, how a save goes on after a failed read (LOG 41), and that a block is copied ahead in the step of the write (LOG 42) are the model's readings. -/
def Obligations.Checkpoints : Prop :=
  (∀ s q n c hw restore, Begun s q n (if restore then 0x39 else 0x38) c → s.eng.save = none → s.eng.saveQ = [] →
    s.eng.protect = [] →
    let r := engineRead c.ctx (leAt c.bytes 16 8) (leAt c.bytes 24 4) (hostStores hw s)
    let d := plain r.1.data
    r.1.st.1 = .ok → leAt c.bytes 24 4 = 64 + 16 * kNreg d → ckptIllegal d restore = none →
    let x := allPieces (c.ctx % 64) (blockVas d) (setPhase q.val n .running r.2)
    ∀ ps, x.1 = .ok ps → ps ≠ [] → x.2.eng.stalled = false →
    (∀ i, i < kNbud d → Reached x.2 (kBuddy d i / 4096)) →
    let size := 1024 * 2 ^ s.net.maxpay.toNat
    let way (i : Nat) (f : Frame) : Prop := f.dst = BitVec.ofNat 20 (kBuddy d i / 4096) ∧ f.win = BitVec.ofNat 12 (kBuddy d i % 4096)
    Answers (exec (if restore then .checkpointRestore q n hw else .checkpointSave q n hw) s) (fun t =>
      ∃ v, t.eng.save = some v ∧ v.restore = restore ∧ v.desc = d ∧ v.gen = kGen d ∧ v.pas = ps ∧ v.q = q ∧ v.uid = n ∧
        (restore = false → v.phase = .clearing ∧ v.blocks = (List.range ps.length).map (fun b => (b, .waiting)) ∧
          (∀ i, i < kNbud d → buddyOpen t i = true ∧ Asked t (kBuddy d i / 4096) 0x01 (fun f => way i f ∧
            f.arg = BitVec.ofNat 64 (slotBase d (kGen d % 2) + 4) ∧ f.payload = [0, 0, 0, 0])) ∧
          (x.2.glb.drvAccept.getLsbD 4 = true → ∀ l ∈ ps, ∀ pa ∈ l, isProtected pa t = true)) ∧
        (restore = true → v.phase = .readManifests ∧ v.buddy = 0 ∧ buddyOpen t 0 = true ∧ t.eng.protect = [] ∧
          ∀ slot j, slot < 2 → j * size < manBytes d → Asked t (kBuddy d 0 / 4096) 0x02 (fun f => way 0 f ∧
            f.arg = BitVec.ofNat 64 (slotBase d slot + j * size) ∧ f.arg2 = BitVec.ofNat 32 (min size (manBytes d - j * size)))))) ∧
  (∀ (s : State) (v : Save) (b : Nat) (ps : List Nat), s.live = true → s.eng.save = some v → v.restore = false →
    v.phase = .blocks → lowestWaiting v = some b → v.pas[b]? = some ps → ps ≠ [] → v.staging = [] → s.eng.heldRx = [] →
    Sparse.sortedFrom none v.blocks = true → Sparse.sortedFrom none s.eng.protect = true →
    liveBuddies v ≠ [] →
    (∀ (i : Nat) (y : Buddy), v.buddies[i]? = some y → y.live = true → Reached s y.node) →
    let r := readPieces (hbmRead .hub .streaming) (ps.flatMap (fun pa => unitPieces pa 4096)) s
    r.2.eng.stalled = false →
    Answers (exec (.ckptBlockReadComplete ⟨b, .none⟩) s) (fun t =>
      (∃ v', t.eng.save = some v' ∧ v'.phase = .blocks ∧ v'.blocks = Sparse.drop v.blocks b ∧ v'.staging = [] ∧
        Sparse.find? v'.crcs b = some (BitVec.ofNat 64 (crc64 (plain r.1.data)))) ∧
      (∀ i ∈ liveBuddies v, buddyOpen t i = true) ∧
      (∀ (i : Nat) (y : Buddy) (j : Nat), v.buddies[i]? = some y → y.live = true → j * (1024 * 2 ^ s.net.maxpay.toNat) < r.1.data.length →
        Asked t (y.ref.toNat / 4096) 0x01 (fun f => f.win = BitVec.ofNat 12 (y.ref.toNat % 4096) ∧
          f.arg = BitVec.ofNat 64 (slotBase v.desc (v.gen % 2) + manRoom v.desc + 65536 * b + j * (1024 * 2 ^ s.net.maxpay.toNat)) ∧
          f.payload = ((plain r.1.data).drop (j * (1024 * 2 ^ s.net.maxpay.toNat))).take (1024 * 2 ^ s.net.maxpay.toNat))) ∧
      (∀ pa ∈ ps, otherWaits v b pa = false → isProtected pa t = false) ∧ t.pool.hbm = s.pool.hbm)) ∧
  (∀ (s : State) (v : Save) (b : Nat) (ps : List Nat) (o : Requester) (pa : Nat) (data : List Byte), s.live = true →
    s.eng.save = some v → v.staging.length < 64 → isProtected pa s = true → blockIndex s pa = some b → v.pas[b]? = some ps →
    otherWaits v b pa = false → Sparse.sortedFrom none v.blocks = true → Sparse.sortedFrom none s.eng.protect = true →
    Serves { s with eng := { s.eng with protect := [] } } pa → data ≠ [] → pa % 256 + data.length ≤ 256 →
    (ckptReadBlock b true s).eng.stalled = false →
    Answers (exec (.ckptHeldWrite o pa data) s) (fun t =>
      (∃ v', t.eng.save = some v' ∧ v'.copied = v.copied + 1 ∧ Sparse.find? v'.blocks b = some .staged) ∧
      isProtected pa t = false ∧ t.pool.hbm = Mem.setBytes s.pool.hbm pa data))

/-- Over an UP node-link quad, whole and next in sequence, from a sender at the incarnation held: a new WRITE or REDUCE_WRITE that its window accepts leaves what the access through the window leaves, a SIGNAL adds its increment to its object at its home, and each is answered by an ACK on the quad on which it came (the model's reading, LOG 36); a SIGNAL that a die in test mode keeps from its home (R21, LOG 163) is neither performed nor answered; one refused is answered by a NAK with the reason, a WRITE that contradicts its TYPE by RANGE, and one that must wait at its home is kept, as LOG 144 has it, and not answered yet (R317); a new READ that its window accepts is answered by a READ_RESP with the data. Each performed
request is a duplicate afterwards, and a duplicate WRITE, REDUCE_WRITE or SIGNAL changes no memory. A REPORT of a group member replaces the one held of it, a GRANT with a new ID that fits is added to those received and one whose ID was seen comes to nothing (R367), a RETURN takes the grant off those donated, and an ABORT of no running collective is remembered. Nothing is stated of a first contact or of a newer incarnation. -/
def Obligations.RequestsReceived : Prop :=
  (∀ (s : State) (f : Frame) (typ : Nat), Arrives s f typ → (s.peer f.src.toNat).duplicate f.psn = false →
    (s.peer f.src.toNat).done.length < 2 ^ 30 → (∀ h ∈ s.eng.heldRx, ¬(h.frame.src = f.src ∧ h.frame.psn = f.psn)) →
    let s1 := heardReq f s
    let node := f.src.toNat
    let ack (t : State) : Prop := Queued t f.quad 0x09 (fun r => r.arg = BitVec.ofNat 64 (f.psn.toNat + 2 ^ 32) ∧ r.dst = f.src)
    let nak (t : State) (reason : Nat) : Prop :=
      Queued t f.quad 0x0A (fun r => r.psn = f.psn ∧ r.arg2 = BitVec.ofNat 32 reason ∧ r.dst = f.src)
    let done (t : State) : Prop := (t.peer node).duplicate f.psn = true
    let wr (red : Option (RedOp × RedFmt)) := winStore (.quad f.quad) f.win.toNat node f.arg.toNat (framePB f) red s1
    (typ = 1 → f.payload ≠ [] → f.payload.length ≤ 4096 → f.arg2 = 0 → (wr none).2.eng.stalled = false →
      (∀ d, (wr none).1 = .ok d → Answers (exec (.writeFrame f) s) (fun t => t.pool = (wr none).2.pool ∧ ack t ∧ done t)) ∧
      (∀ w, (wr none).1 = .error w → Answers (exec (.writeFrame f) s) (fun t => t.pool = (wr none).2.pool ∧ nak t (wreasonCode w)))) ∧
    (typ = 1 → f.payload = [] ∨ 4096 < f.payload.length ∨ f.arg2 ≠ 0 →
      Answers (exec (.writeFrame f) s) (fun t => t.pool = s.pool ∧ nak t 2)) ∧
    (typ = 1 → f.payload ≠ [] → f.payload.length ≤ 4096 → f.arg2 = 0 → (wr none).2.eng.stalled = true → s.eng.stalled = false →
      Answers (exec (.writeFrame f) s) (fun t => t.pool = s1.pool ∧ t.out = s1.out ∧ t.net = s1.net ∧
        t.eng.heldRx = s.eng.heldRx ++ [⟨0x01, f, s.window f.win.toNat⟩])) ∧
    (∀ red, typ = 4 → redOf f.redOp.toNat f.redFmt.toNat = some red → f.payload ≠ [] → f.payload.length ≤ 4096 → f.arg2 = 0 →
      f.payload.length % 256 = 0 → f.arg.toNat % 256 = 0 → (wr (some red)).2.eng.stalled = false →
      ∀ d, (wr (some red)).1 = .ok d →
        Answers (exec (.reduceWrite f) s) (fun t => t.pool = (wr (some red)).2.pool ∧ ack t ∧ done t)) ∧
    (f.payload = [] →
      (let r := winObject f.win.toNat node (f.arg.extractLsb' 0 20).toNat s1
       typ = 3 → f.arg2 = 0 → r.2.eng.stalled = false → s.eng.stalled = false →
       (∀ p, r.1 = .ok p → r.2.parted none (p / 4096) = true → exec (.signalFrame f) s = .next r.2) ∧
       (∀ p, r.1 = .ok p → r.2.parted none (p / 4096) = false → r.2.fenced (p / 4096) = false → Sparse.wf 0 r.2.sync.vals = true →
        Answers (exec (.signalFrame f) s) (fun t => t.obj p = r.2.obj p + f.arg.extractLsb' 32 32 ∧
          (∀ q, q ≠ p → t.obj q = r.2.obj q) ∧ t.pool = r.2.pool ∧ ack t ∧ done t)) ∧
       (∀ w, r.1 = .error w → Answers (exec (.signalFrame f) s) (fun t => t.sync = r.2.sync ∧ t.pool = r.2.pool ∧ nak t (wreasonCode w)))) ∧
      (let r := winLoad (.quad f.quad) f.win.toNat node f.arg.toNat f.arg2.toNat s1
       typ = 2 → f.arg2 ≠ 0 → f.arg2.toNat ≤ 1024 * 2 ^ s.net.maxpay.toNat → r.2.eng.stalled = false → ∀ d, r.1 = .ok d →
        Answers (exec (.readFrame f) s) (fun t => t.pool = r.2.pool ∧ done t ∧
          Queued t f.quad 0x08 (fun g => g.psn = f.psn ∧ g.payload = plain d ∧ g.dst = f.src))) ∧
      (typ = 0x10 → f.win = 0 → fromMember f s = true →
        let idx := (f.arg.extractLsb' 2 6).toNat
        let watts := (f.arg.extractLsb' 32 11).toNat
        (f.arg.extractLsb' 0 2 = 0 → Answers (exec (.report f) s) (fun t =>
          t.pwr = { s.pwr with reports := s.pwr.reports.filter (fun x => x.idx != idx) ++
            [{ idx := idx, wait := (f.arg.extractLsb' 8 8).toNat, watts := watts, full := f.arg.getLsbD 43, time := s.hub.tel }] } ∧
          ack t ∧ done t)) ∧
        (f.arg.extractLsb' 0 2 = 1 → s.pwr.leave = [] → s.pwr.full = false → s.pwr.seen.contains (node, f.arg2) = false →
          (∀ g, s.pwr.group = some g → g.base + s.pwr.received + watts ≤ 1800) → Answers (exec (.grant f) s) (fun t =>
            t.pwr.recv = s.pwr.recv ++ [⟨node, f.arg2, watts, true⟩] ∧ t.pwr.seen = s.pwr.seen ++ [(node, f.arg2)] ∧
            t.pwr.don = s.pwr.don ∧ t.pwr.cap = s.pwr.cap ∧ ack t ∧ done t)) ∧
        (f.arg.extractLsb' 0 2 = 1 → s.pwr.seen.contains (node, f.arg2) = true → Answers (exec (.grant f) s) (fun t =>
          t.pwr = s.pwr ∧ ack t ∧ done t)) ∧
        (f.arg.extractLsb' 0 2 = 2 → Answers (exec (.ret f) s) (fun t =>
          t.pwr.don = s.pwr.don.filter (fun r => !(r.peer == node && r.id == f.arg2)) ∧ t.pwr.recv = s.pwr.recv ∧ ack t ∧ done t)))) ∧
    (typ = 0x0B → s.coll? f.arg2 = none → Answers (exec (.abortFrame f) s) (fun t =>
      t.eng = { s.eng with aborts := s.eng.aborts.filter (fun e => e.1 != f.arg2) ++ [(f.arg2, f.arg.extractLsb' 0 20)] } ∧
      ack t ∧ done t))) ∧
  (∀ (s : State) (f : Frame) (typ : Nat) (c : Instr), Arrives s f typ → (s.peer f.src.toNat).duplicate f.psn = true →
    (typ, c) ∈ [(1, Instr.writeFrame f), (4, .reduceWrite f), (3, .signalFrame f)] → Answers (exec c s) (fun t =>
      t.pool = s.pool ∧ t.sync = s.sync ∧ t.tiles = s.tiles ∧ t.peer f.src.toNat = s.peer f.src.toNat ∧
      Queued t f.quad 0x09 (fun r => r.arg = BitVec.ofNat 64 (f.psn.toNat + 2 ^ 32))))

/-- Over an UP node-link quad: an ACK or NAK that covers the one request of a queue command completes the command with ST_OK, or with ST_WINDOW_FAULT and the reason and node, and no request it covered stays unanswered; a READ_RESP with data writes it to DST of its collective. A request unanswered past its time-out is counted once more and kept, and over a node link its frame goes out again with the same PSN; after the last
retransmission its receiver is lost and its requests end, that of a queue command with ST_PEER_LOST. CLR of NET_XPORT ends the lost state of a node, INV of NET_ADDRTAB empties the cache. Where a request that goes out then reads the address table, it reads memory that does not wait (R216). -/
def Obligations.AnswersReceived : Prop :=
  (∀ (s : State) (f : Frame) (r : NetReq) (q : QId) (uid : Nat) (c : Cmd) (typ : Nat), Arrives s f typ → startedCmd s q.val uid = some c →
    Sparse.wf {} s.sqs = true → r.owner = .cmd q uid →
    let node := f.src.toNat
    let ends (ty : Nat) (i : Instr) (covers : NetReq → Bool) (st : Status) (detail : Nat) : Prop :=
      typ = ty → (takeAnswered node false false covers (heard f s)).2.eng.stalled = false →
      (s.peer node).reqs.filter (fun x => !x.held && covers x) = [r] → Answers (exec i s) (fun t =>
        (∃ u, t = completeCmd q.val uid st detail 0 u ∧ startedCmd u q.val uid = some c) ∧
        startedCmd t q.val uid = none ∧
        (∀ x ∈ (t.peer node).reqs, ∃ y ∈ (s.peer node).reqs, y.psn = x.psn ∧ (y.held = true ∨ covers y = false)))
    ends 9 (.ack f) (fun x => decide ((x.psn - f.arg.extractLsb' 0 32).toNat < (f.arg.extractLsb' 32 32).toNat) && x.typ != 0x02) .ok 0 ∧
    ends 0x0A (.nak f) (fun x => x.psn == f.psn) .windowFault (f.arg2.toNat % 8 + 4096 * node)) ∧
  (∀ (s : State) (f : Frame) (r : NetReq) (id : W32) (c : Coll), Arrives s f 8 → f.arg2 = 0 → s.coll? id = some c →
    c.wait ≠ some .answers → r.owner = .coll id →
    let covers (x : NetReq) : Bool := x.psn == f.psn && x.typ == 0x02
    (s.peer f.src.toNat).reqs.filter (fun x => !x.held && covers x) = [r] →
    let u := (takeAnswered f.src.toNat false f.ece covers (heard f s)).2
    let w := engineWrite c.ctx.val (dDst c.desc + (r.frame.arg.toNat - dOffset c.desc)) (framePB f) u
    w.2.eng.stalled = false → Answers (exec (.readResp f) s) (fun t => t.pool = w.2.pool ∧ t.hostMem = w.2.hostMem ∧ t.net = w.2.net)) ∧
  (∀ (s : State) (node : BitVec 20) (psn : W32) (i : Nat) (r : NetReq), s.live = true →
    let p := s.peer node.toNat
    p.reqs.findIdx? (fun x => x.psn.toNat == psn.toNat && !x.held) = some i → p.reqs[i]? = some r →
    (r.tries < s.net.retries.toNat → (timeoutOp node.toNat psn.toNat s).eng.stalled = false → Answers (exec (.requestTimeout node psn) s) (fun t =>
      t.peer node.toNat = { p with reqs := p.reqs.set i { r with tries := r.tries + 1 } } ∧
      (∀ k, k ≠ node.toNat → t.peer k = s.peer k) ∧ t.sync = s.sync ∧ t.eng.colls = s.eng.colls ∧
      (Reached s node.toNat → ∃ q : QuadId, Queued t q r.typ (fun f =>
        f = { r.frame with quad := q, typ := BitVec.ofNat 8 r.typ })))) ∧
    (s.net.retries.toNat ≤ r.tries → s.eng.colls = [] → s.eng.collQ = [] → s.eng.save = none → s.eng.saveQ = [] →
      Answers (exec (.requestTimeout node psn) s) (fun t => (t.peer node.toNat).lost = true ∧ (t.peer node.toNat).reqs = [] ∧
        ∀ q uid c, p.reqs = [r] → r.owner = .cmd q uid → startedCmd s q.val uid = some c → Sparse.wf {} s.sqs = true → s.eng.stalled = false →
          startedCmd t q.val uid = none ∧ ∃ u, t = completeCmd q.val uid .peerLost node.toNat 0 u ∧ startedCmd u q.val uid = some c))) ∧
  (∀ (s : State) (o : Origin) (v : W64), s.live = true → originFull o = true →
    (v.getLsbD 52 = true → Sparse.wf {} s.net.peers = true → Answers (exec (.xportClr o v) s) (fun t =>
      t.peer (v.extractLsb' 32 20).toNat = { s.peer (v.extractLsb' 32 20).toNat with lost := false } ∧
      (∀ k, k ≠ (v.extractLsb' 32 20).toNat → t.peer k = s.peer k) ∧ t.net.xpeer = v.extractLsb' 32 20 ∧ t.pool = s.pool)) ∧
    (v.getLsbD 6 = true → Answers (exec (.addrtabInv o v) s) (fun t =>
      t.net.atCache = [] ∧ t.net.atValid = v.getLsbD 0 ∧ t.net.atBase = v.extractLsb' 12 36 ∧
      t = { s with net := { s.net with atCache := t.net.atCache, atValid := t.net.atValid, atBase := t.net.atBase, atSize := t.net.atSize } })))

/-- A node-link quad that trains on all four lanes with another node as peer comes UP, on two lanes of a half at half width, else, or with no or the own ID, it is FAILED; a FAILED quad tries again alike; the two quads of an 8-lane port come UP together once all lanes of both have trained, and are FAILED together where one has not (R436; that each half trains by its own command is the model's choice, LOG 177). A replay sends every unacknowledged frame but those its buffer has lost again and counts, and after sixteen in a row the quad trains anew. A link control frame takes what it acknowledges off the replay buffer and adds
its credits. TAIL of a transmit ring is as written, and an ACTIVE ring with an Ethernet quad UP sends and completes every descriptor up to it, one after the other: it reads the descriptor at HEAD, gathers its buffer, sets DONE in it, advances HEAD, and behind one with EOP sends the packet gathered, with its checksums where one of its descriptors asks for them, with the interrupt of the ring. A packet that is not UDP to PORT, or comes to a module without transport on Ethernet (R343), goes into one buffer of the ring that its hash chooses and completes the descriptor, with the bits of its checksums (R326); without a descriptor it is dropped. What a ring register written while its ring runs does (LOG 32), the bytes of the ring hash (LOG 159) and the bits of packets that are not IP (LOG 151) are the model's readings. Each where no access waits at its home (R216). -/
def Obligations.QuadsAndRings : Prop :=
  (∀ (s : State) (q : QuadId) (r : QuadTrain), s.live = true → s.pwr.serdesPll = true → (s.quad q.val).role = 1 →
    let full := r.lanes = 15
    let half := (r.lanes.getLsbD 0 = true ∧ r.lanes.getLsbD 1 = true) ∨ (r.lanes.getLsbD 2 = true ∧ r.lanes.getLsbD 3 = true)
    let good := half ∧ r.peer ≠ 0 ∧ r.peer ≠ s.net.nodeId
    let trained (t : State) : Prop :=
      (good → (t.quad q.val).state = 2 ∧ (t.quad q.val).peerv = true ∧ (t.quad q.val).peer = r.peer ∧
        ((t.quad q.val).half = true ↔ ¬full) ∧ (t.quad q.val).lanes = r.lanes) ∧
      (¬good → (t.quad q.val).state = 3) ∧ t.pool = s.pool
    ((s.quad q.val).state ≠ 3 → Answers (exec (.quadTraining q r) s) trained) ∧
    ((s.quad q.val).state = 3 → Answers (exec (.quadTrainRetry q r) s) trained)) ∧
  (∀ (s : State) (q m : QuadId) (r : QuadTrain) (c : Instr), s.live = true → s.pwr.serdesPll = true → q.val / 2 = m.val / 2 → q ≠ m →
    (s.quad q.val).role = 3 → (s.quad m.val).role = 3 →
    c = (if (s.quad q.val).state = 3 then .quadTrainRetry q r else .quadTraining q r) →
    Answers (exec c s) (fun t => (t.quad q.val).lanes = r.lanes ∧ t.pool = s.pool ∧
      (r.lanes = 15 → (s.quad m.val).lanes = 15 → (t.quad q.val).state = 2 ∧ (t.quad m.val).state = 2) ∧
      (r.lanes ≠ 15 → (t.quad q.val).state = 3 ∧ (t.quad m.val).state = 3) ∧
      (r.lanes = 15 → (s.quad m.val).lanes ≠ 15 → (t.quad q.val).state ≠ 2 ∧ t.quad m.val = s.quad m.val))) ∧
  (∀ (s : State) (q : QuadId) (nak : Bool) (lost : List (Nat × Bool)), s.live = true → (s.quad q.val).role = 1 → (s.quad q.val).state = 2 →
    let x := s.quad q.val
    let buf := x.replayBuf.filter (fun e => !lost.contains (e.1, true))
    buf ≠ [] →
    (x.inRow < 16 → Answers (exec (.nlReplay q nak lost) s) (fun t =>
      t.quad q.val = { x with replayBuf := buf, replays := satAdd x.replays 1, inRow := x.inRow + 1 } ∧
      (lost = [] → t.out = s.out ++ buf.map (fun e => .frame q (nlBytes (linkHeader e.1 x.ackseq.toNat false 0 0) e.2.2))))) ∧
    (16 ≤ x.inRow → Answers (exec (.nlReplay q nak lost) s) (fun t =>
      (t.quad q.val).state = 1 ∧ (t.quad q.val).replayBuf = [] ∧ (lost = [] → t.out = s.out)))) ∧
  (∀ (s : State) (q : QuadId) (hdr : W64), s.live = true → (s.quad q.val).role = 1 → (s.quad q.val).state = 2 →
    (s.quad q.val).waitq = [] → hdr.getLsbD 24 = false →
    let x := s.quad q.val
    let cls := (hdr.extractLsb' 28 2).toNat
    Answers (exec (.linkControlFrame q hdr) s) (fun t =>
      (t.quad q.val).credits = x.credits.modify cls (· + (hdr.extractLsb' 32 16).toNat) ∧
      (∀ i, x.replayBuf.findIdx? (fun e => e.1 == (hdr.extractLsb' 12 12).toNat) = some i →
        (t.quad q.val).replayBuf = x.replayBuf.drop (i + 1) ∧ (t.quad q.val).inRow = 0) ∧
      (x.replayBuf.findIdx? (fun e => e.1 == (hdr.extractLsb' 12 12).toNat) = none → (t.quad q.val).replayBuf = x.replayBuf) ∧
      t.out = s.out)) ∧
  (∀ (s : State) (o : Origin) (r : Fin 64) (v : W64), s.live = true → originFull o = true → Sparse.wf {} s.net.nicTx = true →
    (nicTailOp r.val v s).eng.stalled = false →
    Answers (exec (.nicTxTail o r v) s) (fun t => (t.nicTx r.val).tail = v.extractLsb' 0 32 ∧
      ((s.nicTx r.val).state = .active → nicQuad s ≠ none →
        (t.nicTx r.val).head = v.extractLsb' 0 32)) ∧
    (∀ q, (s.nicTx r.val).state = .active → nicQuad s = some q → v.extractLsb' 0 32 ≠ (s.nicTx r.val).head → s.eng.stalled = false →
      let x := s.nicTx r.val
      let da := x.base.toNat * 4096 + 16 * (x.head.toNat % (16 * 2 ^ x.l.toNat))
      let d := memRead (hubPort 0) da 16 (s.modNicTx r.val (fun y => { y with tail := v.extractLsb' 0 32 }))
      let de := plain d.1.data
      let b := memRead ⟨.hub, 0, .streaming, true⟩ (leAt de 0 8) (leAt de 8 2) d.2
      let flags := leAt de 10 1
      let w := memWrite (hubPort 0) (da + 10) (clean (toBytes (128 + flags % 128) 1)) b.2
      let bytes := x.acc ++ plain b.1.data
      let sums := x.accSums || flags.testBit 1
      let u := nicMsi x (w.2.modNicTx r.val (fun y => { y with
        head := y.head + 1, acc := if flags.testBit 0 then [] else bytes, accSums := !flags.testBit 0 && sums }))
      exec (.nicTxTail o r v) s = exec (.nicTxTail o r v)
        (if flags.testBit 0 then { u with out := u.out ++ [.packet (Fin.ofNat 16 q) (if sums then insertSums bytes else bytes)] } else u))) ∧
  (∀ (s : State) (q : QuadId) (p : Packet) (i : Nat), s.live = true → (s.quad q.val).state = 2 → 2 ≤ (s.quad q.val).role.toNat →
    (∀ v, s.glb.drvAccept.getLsbD 3 = true → s.net.nodeId ≠ 0 → ipView p.bytes = some v → udpTo p.bytes v s.net.port.toNat = false) →
    (nicRings s)[ringHash p.bytes % (nicRings s).length]? = some i →
    let x := s.nicRx i
    (x.head = x.tail → exec (.nicReceive q p) s = .next s) ∧
    (x.head ≠ x.tail → p.bytes.length ≤ 2048 * 2 ^ x.bufsz.toNat →
      let da := x.base.toNat * 4096 + 16 * (x.head.toNat % (16 * 2 ^ x.l.toNat))
      let d := memRead (hubPort 0) da 16 s
      let w := memWrite ⟨.hub, 0, .streaming, true⟩ (leAt (plain d.1.data) 0 8) (clean p.bytes) d.2
      let e := memWrite (hubPort 0) (da + 8)
        (clean (toBytes p.bytes.length 2 ++ toBytes (1 + nicSumBits p.bytes + 128) 1)) w.2
      e.2.eng.stalled = false → Answers (exec (.nicReceive q p) s) (fun t =>
        (t.nicRx i).head = x.head + 1 ∧ (t.nicRx i).tail = x.tail ∧ t.pool = e.2.pool ∧ t.hostMem = e.2.hostMem)))

/-- One millisecond of the cap controller takes the mean power p and the arrays' power a as LAST, sets L_CAP, UNMET, EXCURSION and the count of milliseconds above 1,800 W as the loop says, and AVG to the mean rounded either way (the manual does not say which). Its watchdog forces L_CAP to 16, which the negative of H records where it changes (R415). PWR_CAP in range, from an origin that may, sets CAP and WINDOW and
makes earlier samples count as the new cap where the cap or WINDOW changes; else it is logged. A droop closes the clamp of its die and is counted; with no droop left the clamp opens. CLK_ARR.TARGET starts the change of each idle unfenced die that needs another point and is latched by a die that is changing; pattern switch, hold release and ramp move a change on. -/
def Obligations.PowerCapAndPoints : Prop :=
  (∀ (s : State) (p a : Nat), s.live = true → s.serviceDown 2 = false →
    let E := s.pwr.effective
    let W := s.pwr.window
    let sum := sampleSum E s.pwr.samples (W - 1)
    let n := min W (s.pwr.raw.length + 1)
    let total := p + (s.pwr.raw.take (W - 1)).sum
    let overMs := if 1800 < p then s.pwr.overMs + 1 else 0
    let target : Int := if 16 ≤ overMs then 1700 else min ((E * W : Nat) - (sum : Nat) : Int) 1800
    let L := s.pwr.lcap.toNat
    let l := if (p : Int) ≤ target then min 64 (L + 4)
      else if 0 < a then max 4 (L * (max 0 (target - ((p : Int) - (a : Int)))).toNat / a) else L
    let unmet : Bool := decide (l = 4 ∧ target < (p : Int))
    Answers (exec (.capControlTick p a) s) (fun t =>
      t.pwr.lcap.toNat = l ∧ t.pwr.lcapForced = false ∧ t.pwr.last = p ∧ t.pwr.overMs = overMs ∧
      t.pwr.unmet = unmet ∧ t.pwr.unmetEv = (s.pwr.unmetEv || (unmet && !s.pwr.unmet)) ∧
      t.pwr.excursion = decide (1800 < p) ∧
      t.pwr.excount = (if 1800 < p ∧ s.pwr.excursion = false then satAdd s.pwr.excount 1 else s.pwr.excount) ∧
      t.pwr.samples = (p :: s.pwr.samples).take 9999 ∧
      t.pwr.raw = (p :: s.pwr.raw).take 9999 ∧
      (t.pwr.avg = total / n ∨ (total % n ≠ 0 ∧ t.pwr.avg = total / n + 1)) ∧
      t.pwr.cap = s.pwr.cap ∧ t.pwr.window = W ∧ t.dies = s.dies ∧ t.tiles = s.tiles ∧ t.pool = s.pool)) ∧
  (∀ s : State, s.live = true →
    Answers (exec .lcapWatchdog s) (fun t =>
      t = { s with pwr := { s.pwr with lcap := 16, lcapForced := true }, hub := { s.hub with trace := t.hub.trace } } ∧
      (s.pwr.lcap = 16 → t.hub = s.hub))) ∧
  (∀ (s : State) (o : Origin) (v : W64), s.live = true →
    let cap := (v.extractLsb' 0 11).toNat
    let win := (v.extractLsb' 16 14).toNat
    let legal := 700 ≤ cap ∧ cap ≤ 1800 ∧ 1000 ≤ win ∧ win ≤ 10000
    (originPwr o = true → legal → Answers (exec (.pwrCapWrite o v) s) (fun t =>
      t = { s with pwr := t.pwr } ∧
      t.pwr = { s.pwr with cap := cap, window := win, samples := t.pwr.samples, overMs := t.pwr.overMs } ∧
      (t.pwr.effective = s.pwr.effective ∧ win = s.pwr.window → t.pwr.samples = s.pwr.samples ∧ t.pwr.overMs = s.pwr.overMs) ∧
      (¬(t.pwr.effective = s.pwr.effective ∧ win = s.pwr.window) → t.pwr.samples = [] ∧ t.pwr.overMs = 0))) ∧
    (originPwr o = false ∨ ¬legal → exec (.pwrCapWrite o v) s = .next (logReg 0x200010 (originReq o) s))) ∧
  (∀ (s : State) (u : TileId), s.live = true → s.fenced (u.val / 24) = false → Sparse.wf {} s.dies = true →
    let x := s.die (u.val / 24)
    Answers (exec (.droopReport u true) s) (fun t =>
      t.die (u.val / 24) = { x with
        trips := satAdd x.trips 1, clamp := true, droops := setBit x.droops (u.val % 24) true, lastTile := BitVec.ofNat 7 u.val } ∧
      t = { s with dies := t.dies, hub := t.hub } ∧ (∀ d, d ≠ u.val / 24 → t.die d = s.die d)) ∧
    exec (.droopReport u false) s = .next (s.setDie (u.val / 24) { x with droops := setBit x.droops (u.val % 24) false })) ∧
  (∀ (s : State) (d : DieId), s.live = true → Sparse.wf {} s.dies = true →
    let x := s.die d.val
    let target := s.pwr.target
    let want := if target < x.steps then x.steps else target
    let becomes (i : Instr) (y : Die) : Prop := Answers (exec i s) (fun t =>
      t.die d.val = y ∧ t = { s with dies := t.dies, hub := t.hub } ∧ (∀ e, e ≠ d.val → t.die e = s.die e))
    let ends (i : Instr) (y : Die) : Prop := Answers (exec i s) (fun t =>
      t.die d.val = { y with pmc := (t.die d.val).pmc } ∧ t = { s with dies := t.dies, free := t.free } ∧
      (∀ e, e ≠ d.val → t.die e = s.die e))
    (x.droops = 0 → ends (.shutterRelease d) { x with clamp := false }) ∧
    (x.droops ≠ 0 → becomes (.shutterRelease d) x) ∧
    (∀ dest, x.phase = .clamped dest → becomes (.arrPatternSwitch d)
      { x with phase := if x.point < dest then .switchedLow else .switched, point := dest }) ∧
    (x.droops = 0 → x.phase = .switchedLow → ends (.holdRelease d) { x with hold := false, phase := .rampDown }) ∧
    (x.droops = 0 → x.phase = .switched → want = x.point →
      ends (.holdRelease d) { x with hold := false, phase := .idle, latched := false }) ∧
    (x.droops ≠ 0 → becomes (.holdRelease d) x) ∧
    (∀ dest, x.phase = .rampUp dest → becomes (.vddArrRampDone d) { x with phase := .clamped dest, hold := true }) ∧
    (x.phase = .rampDown → want = x.point → becomes (.vddArrRampDone d) { x with phase := .idle, latched := false })) ∧
  (∀ (s : State) (o : Origin) (v : W64), s.live = true → Sparse.wf {} s.dies = true → originPwr o = true →
    let tgt := v.extractLsb' 0 2
    (tgt = 3 → exec (.clkArrTarget o v) s = .next s) ∧
    (tgt ≠ 3 → Answers (exec (.clkArrTarget o v) s) (fun t =>
      t.pwr = { s.pwr with target := tgt } ∧ t = { s with pwr := t.pwr, dies := t.dies } ∧
      ∀ d : DieId,
        let x := s.die d.val
        let y := t.die d.val
        let want := if tgt < x.steps then x.steps else tgt
        (s.fenced d.val = true → y = x) ∧
        (s.fenced d.val = false →
          y.point = x.point ∧
          (x.phase = .idle → want = x.point → y = { x with latched := false }) ∧
          (x.phase = .idle → x.point < want → y = { x with phase := .clamped want, hold := true, latched := false }) ∧
          (x.phase = .idle → want < x.point → y = { x with phase := .rampUp want, latched := false }) ∧
          (x.phase ≠ .idle → y.phase = x.phase ∧ y.hold = x.hold)))))

/-- A thermal millisecond with control running gives each die its temperature (its sensors' highest, and at least 105 where a stack has 95 °C or more, which PEAK follows: the model's reading, LOG 52) and peak, halves L_THERM down to 4 at 105 °C or more and raises it by 4 with the tenth millisecond below 102 °C; H's divider ceiling moves by one in the same way; a stack above 85 °C refreshes at twice the rate. A die at L_THERM 16 or
less for 100 ms steps one point down, one below 95 °C for 1 s one up. While Z2 is held down or stalled (R400, R402) the temperatures are taken, L_THERM and the ceiling stand, and no epoch is run. The input readings are what the monitors measured; with VIN_AUX alone readings and temperatures are taken and nothing is controlled, without it nothing happens. TRIP and PEAK are cleared by their write. A divider written by its core takes effect at once where it slows the core, after VDD_SRV's ramp where it speeds it up. In a group an epoch whose accesses wait for nothing REPORTs to every other member its wait, taken from the counts that passed with no command waiting and for the others from the command (LOG 51), returns the newest grant where the wait is 10 % or more or CAP bounds the cap (LOG 148), and below 2 % takes the oldest renewed donation back; leases, donations and the joining hold end. -/
def Obligations.TemperatureDividersAndGroups : Prop :=
  (∀ (s : State) (dt st : List (BitVec 8)) (vmain vio : BitVec 16) (vaux : BitVec 12), dt.length = 5 → st.length = 12 →
    Sparse.wf {} s.dies = true →
    (s.live = true → s.z2Still = false → Sparse.wf {} s.pool.stack = true → Answers (exec (.thermalTick dt ⟨st, vmain, vio, vaux⟩) s) (fun t =>
      (∀ d : DieId,
        let x := s.die d.val
        let y := t.die d.val
        let sensor := (dt.getD (1 + d.val) 0).toNat
        let T := if (∃ i : Fin 3, 95 ≤ (st.getD (3 * d.val + i.val) 0).toNat) then max sensor 105 else sensor
        y.temp.toNat = T ∧ y.peak = (if x.peak.toNat < T then y.temp else x.peak) ∧
        y.ltherm.toNat = (if 105 ≤ T then max 4 (x.ltherm.toNat / 2)
          else if T < 102 ∧ x.coolMs + 1 = 10 then min 64 (x.ltherm.toNat + 4) else x.ltherm.toNat) ∧
        y.point = x.point ∧ y.phase = x.phase ∧ y.steps = x.steps ∧ y.fenced = x.fenced) ∧
      (∀ k : StackId, (t.stack k.val).temp = st.getD k.val 0 ∧ (t.stack k.val).ref2x = decide (85 < (st.getD k.val 0).toNat)) ∧
      t.hub.temp = dt.getD 0 0 ∧
      t.hub.srvceil.toNat = (let T := (dt.getD 0 0).toNat
        let c := s.hub.srvceil.toNat
        if 105 ≤ T then min 7 (c + 1) else if T < 102 ∧ s.hub.coolMs + 1 = 10 then max 2 (c - 1) else c) ∧
      t.pool.hbm = s.pool.hbm ∧ t.tiles = s.tiles ∧
      t.pwr = { s.pwr with vmain := t.pwr.vmain, vio := t.pwr.vio, vaux := t.pwr.vaux } ∧
      (s.aux.unknown = false → t.pwr.vmain = vmain ∧ t.pwr.vio = vio ∧ t.pwr.vaux = vaux))) ∧
    (s.live = true → s.z2Still = true → Answers (exec (.thermalTick dt ⟨st, vmain, vio, vaux⟩) s) (fun t =>
      (∀ d : DieId, (t.die d.val).ltherm = (s.die d.val).ltherm ∧ (t.die d.val).steps = (s.die d.val).steps ∧
        (t.die d.val).temp.toNat = (if (∃ i : Fin 3, 95 ≤ (st.getD (3 * d.val + i.val) 0).toNat)
          then max (dt.getD (1 + d.val) 0).toNat 105 else (dt.getD (1 + d.val) 0).toNat)) ∧
      t.hub.temp = dt.getD 0 0 ∧ t.hub.srvceil = s.hub.srvceil)) ∧
    (s.live = false → s.pwr.auxV = true → Answers (exec (.thermalTick dt ⟨st, vmain, vio, vaux⟩) s) (fun t =>
      (∀ d : DieId, (t.die d.val).temp = dt.getD (1 + d.val) 0 ∧ (t.die d.val).ltherm = (s.die d.val).ltherm) ∧
      t.hub.temp = dt.getD 0 0 ∧ t.hub.srvceil = s.hub.srvceil ∧
      (s.aux.unknown = false → t.pwr = { s.pwr with vmain := vmain, vio := vio, vaux := vaux }))) ∧
    (s.live = false → s.pwr.auxV = false → exec (.thermalTick dt ⟨st, vmain, vio, vaux⟩) s = .next s)) ∧
  (∀ (s : State) (d : DieId), s.live = true → Sparse.wf {} s.dies = true → s.fenced d.val = false → s.z2Still = false →
    let x := s.die d.val
    let now := if s.pwr.target < x.steps then x.steps else s.pwr.target
    (100 ≤ x.lowMs → now < 2 → x.phase = .idle → x.point = now → exec (.thermalStepDown d) s = .next (s.setDie d.val { x with
      steps := now + 1, lowMs := 0, phase := .clamped (now + 1), hold := true, latched := false })) ∧
    (x.lowMs < 100 ∨ ¬(now < 2) → exec (.thermalStepDown d) s = .next (s.setDie d.val x)) ∧
    (1000 ≤ x.coldMs → x.steps ≠ 0 → Answers (exec (.thermalStepUp d) s) (fun t =>
      (t.die d.val).steps = x.steps - 1 ∧ (t.die d.val).coldMs = 0 ∧ t = { s with dies := t.dies } ∧
      ∀ e, e ≠ d.val → t.die e = s.die e)) ∧
    (x.coldMs < 1000 ∨ x.steps = 0 → exec (.thermalStepUp d) s = .next (s.setDie d.val x))) ∧
  (∀ (s : State) (o : Origin) (x : Fin 5) (v : W64) (i : Instr), s.live = true → Sparse.wf {} s.dies = true → originFull o = true →
    (i = .tripClear o x v ∨ i = .clrpeak o x v) → Answers (exec i s) (fun t =>
      t = { s with aux := t.aux, hub := t.hub, dies := t.dies } ∧
      (∀ j : Fin 5, t.aux.trip.getLsbD j.val = (s.aux.trip.getLsbD j.val && !(v.getLsbD 25 && decide (j = x)))) ∧
      t.hub = (if v.getLsbD 26 = true ∧ x = 0 then { s.hub with peak := s.hub.temp } else s.hub) ∧
      (∀ d, t.die d = (if v.getLsbD 26 = true ∧ d + 1 = x.val then { s.die d with peak := (s.die d).temp } else s.die d)))) ∧
  (∀ (s : State) (k : CoreId) (v : W32), s.live = true → Sparse.wf 2 s.cores.srvDiv = true → Sparse.wf 2 s.cores.srvAct = true →
    let div := (v.extractLsb' 0 3).toNat
    let want := max div s.hub.srvceil.toNat
    (div < 2 → exec (.clkSrvDiv (.core k true) k v) s = .next s) ∧
    (2 ≤ div → Answers (exec (.clkSrvDiv (.core k true) k v) s) (fun t =>
      t = { s with cores := t.cores } ∧ t.srvDiv k.val = div ∧
      (s.srvAct k.val < want → t.srvAct k.val = want ∧ k.val ∉ t.cores.srvRamp) ∧
      (want < s.srvAct k.val → t.srvAct k.val = s.srvAct k.val ∧ k.val ∈ t.cores.srvRamp) ∧
      (∀ j, j ≠ k.val → t.srvDiv j = s.srvDiv j ∧ t.srvAct j = s.srvAct j))) ∧
    exec (.clkSrvDiv .pf0 k v) s = .next (logReg (0x201100 + 4 * k.val) (originReq .pf0) s) ∧
    (k.val ∈ s.cores.srvRamp → Answers (exec (.vddSrvRampDone k) s) (fun t =>
      t = { s with cores := t.cores } ∧ k.val ∉ t.cores.srvRamp ∧
      t.srvAct k.val = max (s.srvDiv k.val) s.hub.srvceil.toNat))) ∧
  (∀ (s : State) (n : Nat), s.live = true → s.z2Still = true → exec (.powerEpoch n) s = .next s) ∧
  (∀ (s : State) (n : Nat), s.live = true → s.z2Still = false →
    let c := max s.pwr.epochBusy (min (1000000 - (s.pwr.epochTicks - s.pwr.epochBusy)) n)
    let w : BitVec 8 := BitVec.ofNat 8 ((255 * c + 500000) / 1000000)
    (s.pwr.group = none → exec (.powerEpoch n) s = .next { s with pwr := { s.pwr with epochTicks := 0, epochBusy := 0 } }) ∧
    (∀ g, s.pwr.group = some g → g.my < 64 → s.pwr.leave = [] → (epochOp c s).eng.stalled = false →
      Answers (exec (.powerEpoch n) s) (fun t =>
        t.pwr.wait = w ∧ t.pwr.group = some g ∧ t.pwr.cap = s.pwr.cap ∧ t.pwr.epochTicks = 0 ∧ t.pwr.epochBusy = 0 ∧
        (1000000 ≤ 10 * c ∨ s.pwr.cap < s.pwr.share → t.pwr.recv = s.pwr.recv.dropLast) ∧
        (1000000 ≤ 10 * c → s.pwr.recv ≠ [] → t.pwr.don = s.pwr.don) ∧
        (10 * c < 1000000 → 1000000 ≤ 50 * c → ¬(s.pwr.cap < s.pwr.share) →
          t.pwr = { s.pwr with wait := w, epochTicks := 0, epochBusy := 0 }) ∧
        (50 * c < 1000000 → ¬(s.pwr.cap < s.pwr.share) → ∀ l r l', s.pwr.don = l ++ r :: l' → r.renew = true →
          (∀ x ∈ l, x.renew = false) → t.pwr.don = l ++ { r with renew := false } :: l') ∧
        (∀ m ∈ g.members.eraseIdx g.my, m ≠ s.net.nodeId → (s.peer m.toNat).lost = false →
          ∃ r ∈ (t.peer m.toNat).reqs, r.typ = 0x10 ∧ r.frame.arg.extractLsb' 0 2 = 0 ∧ r.frame.arg.extractLsb' 8 8 = w ∧
            r.frame.arg.extractLsb' 16 16 = g.gid ∧ r.frame.arg.extractLsb' 32 11 = BitVec.ofNat 11 s.pwr.effective)))) ∧
  (∀ s : State, s.live = true →
    (∀ g (x : Fin 64) (id : W32), s.pwr.group = some g → Answers (exec (.grantLeaseExpiry x id) s) (fun t =>
      t = { s with pwr := t.pwr } ∧ t.pwr.cap = s.pwr.cap ∧ t.pwr.don = s.pwr.don ∧
      t.pwr.recv = s.pwr.recv.filter (fun r => !(r.peer == (g.members.getD x.val 0).toNat && r.id == id)))) ∧
    (∀ id : W32, Answers (exec (.donationExpiry id) s) (fun t =>
      t = { s with pwr := t.pwr } ∧ t.pwr.cap = s.pwr.cap ∧ t.pwr.recv = s.pwr.recv ∧
      t.pwr.don = s.pwr.don.filter (fun r => r.id != id))) ∧
    Answers (exec .joinHoldEnd s) (fun t =>
      t = { s with pwr := t.pwr } ∧
      t.pwr = { s.pwr with joining := false, samples := t.pwr.samples, overMs := t.pwr.overMs }) ∧
    (s.pwr.don ≠ [] → exec .groupLeaveComplete s = .next s) ∧
    (∀ (q : QId) n c, s.pwr.don = [] → s.pwr.leave = [(q, n)] → startedCmd s q.val n = some c → Sparse.wf {} s.sqs = true →
      leAt c.bytes 20 4 = 0 → Answers (exec .groupLeaveComplete s) (fun t =>
        t.pwr.leave = [] ∧ t.pwr.group = none ∧ startedCmd t q.val n = none ∧ t.pool = s.pool)))

/-- Inputs in the order VIN_AUX, VIN_IO, VIN_MAIN, each 10 ms after the one before, start the module with a cold reset; an input out of order latches PWR_SEQ_FAULT with its cause, kept in the FRU EEPROM, and turns the rails off; the loss of VIN_MAIN loses every memory and register but fuses, flash (where a write still on its way is stored or lost) and latches, and that of VIN_AUX the latches too; the cause of a hub loss is kept. Sidebands driven without VIN_AUX may leave the monitors in an unknown state, which an absence of VIN_AUX for 1 s ends; such monitors may find anything, and an input in order that rises outside its ramp times may be taken as out of order or not. A short dip is counted; another is a loss of VIN_MAIN. A PLL of H that loses lock and
every hub loss ask for a cold reset whose cause the sequencer holds; the PCIe PLL takes the link down, the SerDes PLL the quads, in a module held in reset too; without REFCLK the module stands still until a cold reset. MOD_RST_N low for 10 µs asks for a cold reset, one shorter than 1 µs for none. A cold reset asked for resets the PCIe/CXL controller at once. THERMTRIP_N and SEQFLT_N show the latches, or what the boundary-scan cells hold while MOD_RST_N is low under EXTEST or CLAMP.
The model's own readings: when a held cause is given up is LOG 63; that a flash write on its way is stored or lost, LOG 64; what unknown monitors find and a ramp outside its times, LOG 158; the level of PERST_N and the TAP at MOD_RST_N, LOG 162; which of two causes asked for is kept, LOG 166. -/
def Obligations.SuppliesClocksAndPins : Prop :=
  (∀ s : State,
    let p := s.pwr
    let due (c : Nat) : Nat := (s.glb.resetting.filter (fun r => r == 3 || r == 4 || r == 8 || r == 9)).getD c
    let kept (t : State) : Prop := t.fuses = s.fuses ∧ (s.flash.stores = [] → t.flash = s.flash) ∧ t.flash = { s.flash with
      d2dNext := t.flash.d2dNext, qroleNext := t.flash.qroleNext, regionNext := t.flash.regionNext, nodeId := t.flash.nodeId, stores := [] }
    let faults (i : Instr) (cause : Nat) : Prop := Answers (exec i s) (fun t =>
      t.pwr.off = true ∧ t.aux.seqFault = true ∧ t.aux.fruSeqCause = cause ∧ t.aux.seqNew = true ∧ t.live = false ∧
      t.pool = State.reset.pool ∧ t.tiles = [] ∧ kept t)
    (p.auxV = false → p.ioV = false → p.mainV = false → ∀ gap driven off1s, Answers (exec (.supplyValid .aux ⟨gap, true, driven, off1s⟩) s) (fun t =>
      t = { s with pwr := { p with auxV := true }, aux := { s.aux with unknown := t.aux.unknown }, free := t.free } ∧
      (driven = false → t.aux.unknown = (s.aux.unknown && !off1s) ∧ t.free = s.free) ∧
      (s.aux.unknown = true → off1s = false → t.aux.unknown = true))) ∧
    (p.auxV = false → (p.ioV = true ∨ p.mainV = true) → ∀ gap off1s, (s.aux.unknown = false ∨ off1s = true) →
      ∀ ramp, faults (.supplyValid .aux ⟨gap, ramp, false, off1s⟩) 4) ∧
    (p.auxV = true → s.aux.seqFault = false → s.aux.unknown = true → ∀ gap ramp driven off1s,
      (p.ioV = false → Answers (exec (.supplyValid .io ⟨gap, ramp, driven, off1s⟩) s) (fun t =>
        t.pwr.ioV = true ∧ (t.aux.seqFault = false → t = { s with pwr := { p with ioV := true }, free := s.free + 1 }))) ∧
      (p.mainV = false → Answers (exec (.supplyValid .main ⟨gap, ramp, driven, off1s⟩) s) (fun t =>
        t.pwr.mainV = true ∧ t.live = false ∧ (t.aux.seqFault = false → t.glb.resetting ≠ none)))) ∧
    (p.ioV = false → p.auxV = true → s.aux.seqFault = false → s.aux.unknown = false → ∀ driven off1s,
      exec (.supplyValid .io ⟨true, true, driven, off1s⟩) s = .next { s with pwr := { p with ioV := true } } ∧
      Answers (exec (.supplyValid .io ⟨true, false, driven, off1s⟩) s) (fun t =>
        t.pwr.ioV = true ∧ (t.aux.seqFault = false → t = { s with pwr := { p with ioV := true }, free := s.free + 1 }) ∧
        (t.aux.seqFault = true → t.pwr.off = true ∧ t.live = false)) ∧
      ∀ ramp, faults (.supplyValid .io ⟨false, ramp, driven, off1s⟩) 1) ∧
    (p.mainV = false → p.auxV = true → s.aux.seqFault = false → s.aux.unknown = false → ∀ driven off1s,
      (p.ioV = true → exec (.supplyValid .main ⟨true, true, driven, off1s⟩) s = .next { s with
        pwr := { p with mainV := true, off := false }
        glb := { s.glb with resetting := some (due (if s.aux.trip.getLsbD 0 then 8 else s.aux.cause.getD 0)), ready := false }
        pcie := s.freshPcie }) ∧
      (p.ioV = true → Answers (exec (.supplyValid .main ⟨true, false, driven, off1s⟩) s) (fun t =>
        t.pwr.mainV = true ∧ t.live = false ∧ (t.aux.seqFault = false → t.glb.resetting ≠ none) ∧
        (t.aux.seqFault = true → t.pwr.off = true))) ∧
      (p.ioV = false → ∀ gap ramp, faults (.supplyValid .main ⟨gap, ramp, driven, off1s⟩) 2) ∧
      ∀ ramp, faults (.supplyValid .main ⟨false, ramp, driven, off1s⟩) 2) ∧
    (p.mainV = true → Answers (exec (.supplyLost .main) s) (fun t =>
      t.pwr.mainV = false ∧ t.live = false ∧ t.pool = State.reset.pool ∧ t.tiles = [] ∧ t.sqs = [] ∧ t.ctxs = [] ∧ t.net = State.reset.net ∧
      kept t ∧ t.pwr.auxV = p.auxV ∧ t.pwr.ioV = p.ioV ∧
      t.aux = { s.aux with cause := if s.aux.cause = some 3 ∨ s.aux.cause = some 4 then s.aux.cause
        else if p.auxV = true ∧ p.ioV = true ∧ p.off = false then some 6 else s.aux.cause })) ∧
    (p.ioV = true → p.mainV = true → p.auxV = true → s.aux.seqFault = false → s.aux.unknown = false → faults (.supplyLost .io) 3) ∧
    (p.auxV = true → Answers (exec (.supplyLost .aux) s) (fun t =>
      t.pwr.auxV = false ∧ t.live = false ∧ t.aux = { s.aux with seqFault := false, trip := 0, cause := none } ∧
      t.pool = State.reset.pool ∧ kept t ∧ (Sparse.wf {} s.dies = true → ∀ d : DieId, (t.die d.val).tripped = false ∧ t.fenced d.val = false))) ∧
    (∀ us mv, s.live = true → us ≤ 100 → 36000 ≤ mv →
      exec (.vinMainDip us mv) s = .next { s with pwr := { p with uv := satAdd p.uv 1 } }) ∧
    (∀ us mv, (100 < us ∨ mv < 36000) → exec (.vinMainDip us mv) s = exec (.supplyLost .main) s) ∧
    exec .refclkLoss s = .next { s with pwr := { p with refclk := false } } ∧
    (p.refclk = false → s.glb.resetting = none → exec .refclkReturn s = .next { s with
      pwr := { p with refclk := true }, glb := { s.glb with resetting := some 5, ready := false }, pcie := s.freshPcie }) ∧
    (p.refclk = true → exec .refclkReturn s = .next s) ∧
    (∀ ns starts released,
      let s1 := { s with ctl := { s.ctl with modRst := !released } }
      (ns < 1000 ∨ s.powered = false → exec (.modRstN ns starts released) s = .next s1) ∧
      (s.powered = true → (10000 ≤ ns ∨ (1000 ≤ ns ∧ starts = true)) → exec (.modRstN ns starts released) s =
        .next { s1 with glb := { s.glb with resetting := some (due 7), ready := false }, pcie := s.freshPcie })) ∧
    (∀ high, exec (.prsntN high) s = .next { s with ctl := { s.ctl with present := !high } }) ∧
    (s.ctl.modRst = false ∨ s.ctl.tap ∉ [.extest, .clamp, .highz] →
      thermtripLow s = (p.auxV && s.aux.trip != 0) ∧ seqfltLow s = (p.auxV && s.aux.seqFault)) ∧
    (s.ctl.modRst = true → (s.ctl.tap = .highz → thermtripLow s = false ∧ seqfltLow s = false) ∧
      (s.ctl.tap = .extest ∨ s.ctl.tap = .clamp → thermtripLow s = s.ctl.cells.therm ∧ seqfltLow s = s.ctl.cells.seqflt)) ∧
    (s.live = false → s.powered = true →
      (s.pcie.linkUp = false → exec (.pllLossOfLock .pcie) s = .next { s with pwr := { p with pciePll := false } }) ∧
      exec (.pllLossOfLock .serdes) s = .next { s with pwr := { p with serdesPll := false } } ∧
      exec (.pllRelock .pcie) s = .next { s with pwr := { p with pciePll := true } } ∧
      exec (.pllRelock .serdes) s = .next { s with pwr := { p with serdesPll := true } } ∧
      (∀ l, l ≠ .pcie → l ≠ .serdes → exec (.pllLossOfLock l) s = .next s ∧ exec (.pllRelock l) s = .next s)) ∧
    (s.powered = false → ∀ l, exec (.pllLossOfLock l) s = .next s ∧ exec (.pllRelock l) s = .next s) ∧
    (s.powered = true → s.pcie.linkUp = true → exec (.pllLossOfLock .pcie) s =
      exec .linkDown { s with pwr := { p with pciePll := false } })) ∧
  (∀ s : State, s.live = true →
    let asks (i : Instr) (cause : Nat) : Prop := Answers (exec i s) (fun t =>
      t.glb = { s.glb with resetting := some cause, ready := false } ∧ t.aux = { s.aux with cause := some cause } ∧
      t.pcie = s.freshPcie ∧ t = { s with glb := t.glb, aux := t.aux, pwr := t.pwr, pcie := t.pcie })
    asks (.pllLossOfLock (.root 0)) 4 ∧ asks (.pllLossOfLock (.d2d 0)) 4 ∧ asks (.hubLoss .pll) 4 ∧ asks (.hubLoss .fabric) 3 ∧
    (∀ d, asks (.hubLoss (.noHeartbeat d)) 3) ∧
    (s.pcie.linkUp = false → exec (.pllLossOfLock .pcie) s = .next { s with pwr := { s.pwr with pciePll := false } }) ∧
    (s.pwr.pciePll = false → Answers (exec (.pllRelock .pcie) s) (fun t =>
      t.pwr = { s.pwr with pciePll := true } ∧ t.pcie.linkUp = s.pcie.linkUp ∧ t.pool = s.pool ∧ t.net = s.net)) ∧
    (s.pwr.pciePll = true → exec (.pllRelock .pcie) s = .next s) ∧
    (Sparse.wf {} s.net.quad = true → Answers (exec (.pllLossOfLock .serdes) s) (fun t =>
      t.pwr = { s.pwr with serdesPll := false } ∧ (∀ q : QuadId,
        ((s.quad q.val).role = 0 → t.quad q.val = s.quad q.val) ∧
        ((s.quad q.val).role ≠ 0 → (t.quad q.val).state = 0 ∧ (t.quad q.val).replayBuf = [] ∧
          (t.quad q.val).waitq = (s.quad q.val).waitq)))) ∧
    (Sparse.wf {} s.net.quad = true → s.pwr.serdesPll = false → Answers (exec (.pllRelock .serdes) s) (fun t =>
      t.pwr = { s.pwr with serdesPll := true } ∧ (∀ q : QuadId,
        t.quad q.val = (if (s.quad q.val).role = 0 then s.quad q.val else { s.quad q.val with state := 1 })))))

/-- On an unfenced die the heartbeat's time-out, a fabric error, a PLL that loses lock and a thermal trip fence it with their cause: it is exposing, its partner edge is cut at both ends, its tiles run nothing, no wait is pending on its objects, and each of its kernels that lives on ends with ST_DIE_LOST and the die as DETAIL; the other dies stay in service. The eighth heartbeat in a row without an answer fences the die, an
answer clears its count. A fenced die is not fenced again. At the end of EXPOSING, which Z3 determines, the contexts found show in GLB_CTX_EXPOSED. A hub trip turns the module off with its latch set; a trip of a module that stands still sets latch and record and fences the die. A module that fails takes the role of none; the control module takes its edge with it. Loopback is only set in states that permit test.
The model's own readings: the first cause of a fence stays and the eighth heartbeat in a row is the lapse, LOG 29; what a trip leaves besides, of a module that stands still too, LOG 52; the fence through a failing control module, LOG 125. -/
def Obligations.DieLoss : Prop :=
  let lost (s t : State) (d : DieId) (cause : Nat) : Prop :=
    (t.die d.val).fenced = true ∧ (t.die d.val).cause = BitVec.ofNat 4 cause ∧ (t.die d.val).exposing = true ∧
    (t.die d.val).partnerUp = false ∧ (t.die (partner d.val)).partnerUp = false ∧
    (∀ u, u / 24 = d.val → (t.tile u).run = none) ∧ (∀ w ∈ t.sync.waits, w.phys / 4096 ≠ d.val) ∧
    (∀ e, e ≠ d.val → t.fenced e = s.fenced e) ∧
    (∀ k, s.kernel? k.kid = some k → (∃ u : TileId, u.val / 24 = d.val ∧ (k.live ||| k.todo).getLsbD u.val = true) →
      k.abort = none → ∀ k', t.kernel? k.kid = some k' → k'.abort = some (.dieLost, 2 ^ d.val))
  (∀ (s : State) (d : DieId), s.live = true → s.fenced d.val = false → Sparse.wf {} s.dies = true → Sparse.wf {} s.tiles = true →
    let fences (i : Instr) (cause : Nat) : Prop := Answers (exec i s) (fun t => lost s t d cause)
    fences (.heartbeatTimeout d) 1 ∧ fences (.dieFabricError d) 4 ∧ fences (.pllLossOfLock (.hbm d)) 2 ∧
    fences (.pllLossOfLock (.root d.succ)) 2 ∧ fences (.pllLossOfLock (.d2d d.succ)) 2 ∧
    Answers (exec (.thermalTrip d.succ) s) (fun t =>
      lost s t d 3 ∧ t.aux = { s.aux with
        trip := setBit s.aux.trip (d.val + 1) true, fruTrips := s.aux.fruTrips ++ [d.succ] } ∧ 115 ≤ (t.die d.val).temp.toNat ∧ (t.die d.val).tripped = true) ∧
    (∀ a : BitVec 4, a.getLsbD d.val = false → 7 ≤ (s.die d.val).hbMissed →
      (∀ e : DieId, e ≠ d → s.fenced e.val = true ∨ a.getLsbD e.val = true) → fences (.heartbeat a) 1) ∧
    (∀ m : Fin 24, roleOf (s.die d.val).roles m.val = 2 →
      (m.val < 16 → ∀ r, fences (.d2dModuleFailure d m r) 1) ∧
      (16 ≤ m.val → ∀ r, Answers (exec (.d2dModuleFailure d m r) s) (fun t =>
        (t.die d.val).partnerUp = false ∧ (t.die (partner d.val)).partnerUp = false ∧ t.fenced d.val = false ∧
        t.tiles = s.tiles ∧ t.pool = s.pool))) ∧
    (∀ m : Fin 24, roleOf (s.die d.val).roles m.val < 2 → ∀ r, Answers (exec (.d2dModuleFailure d m r) s) (fun t =>
      (∀ j : Fin 24, roleOf (t.die d.val).roles j.val = if j = m then 3 else roleOf (s.die d.val).roles j.val) ∧
      t.fenced d.val = false ∧ (t.die d.val).partnerUp = (s.die d.val).partnerUp ∧ t.tiles = s.tiles ∧ t.pool = s.pool)) ∧
    (∀ m : Fin 24, roleOf (s.die d.val).roles m.val = 3 → ∀ r, exec (.d2dModuleFailure d m r) s = .next s)) ∧
  (∀ (s : State) (d : DieId), s.live = true → s.fenced d.val = true → exec (.heartbeatTimeout d) s = .next s ∧
    Answers (exec (.dieFabricError d) s) (fun t => t.dies = s.dies ∧ t.tiles = s.tiles ∧ t.kernels = s.kernels)) ∧
  (∀ (s : State) (a : BitVec 4), s.live = true → Sparse.wf {} s.dies = true →
    (∀ d : DieId, s.fenced d.val = false → a.getLsbD d.val = true ∨ (s.die d.val).hbMissed < 7) →
    Answers (exec (.heartbeat a) s) (fun t => t = { s with dies := t.dies } ∧ ∀ d : DieId,
      t.die d.val = (if s.fenced d.val = true then s.die d.val
        else { s.die d.val with hbMissed := if a.getLsbD d.val then 0 else (s.die d.val).hbMissed + 1 }))) ∧
  (∀ (s : State) (d : DieId), s.live = true → s.serviceDown 3 = false → Sparse.wf {} s.dies = true → (s.die d.val).exposing = true →
    Answers (exec (.exposureDetermined d) s) (fun t =>
      t = { s with dies := t.dies, glb := { s.glb with exposed := s.glb.exposed ||| (s.die d.val).exposeFound } } ∧
      t.die d.val = { s.die d.val with exposing := false } ∧ (∀ e, e ≠ d.val → t.die e = s.die e))) ∧
  (∀ (s : State) (d : DieId), s.live = true → (s.serviceDown 3 = true ∨ (s.die d.val).exposing = false) →
    exec (.exposureDetermined d) s = .next s) ∧
  (∀ s : State, s.live = true → Answers (exec (.thermalTrip 0) s) (fun t =>
    t.pwr.off = true ∧ t.live = false ∧ t.pool = State.reset.pool ∧ t.fuses = s.fuses ∧ (s.flash.stores = [] → t.flash = s.flash) ∧
    t.aux = { s.aux with trip := setBit s.aux.trip 0 true, fruTrips := s.aux.fruTrips ++ [0] })) ∧
  (∀ (s : State) (x : Fin 5), s.live = false →
    (s.powered = true → Sparse.wf {} s.dies = true → ∀ d : DieId, x = d.succ → Answers (exec (.thermalTrip x) s) (fun t =>
      t = { s with dies := t.dies, aux := { s.aux with
        trip := setBit s.aux.trip x.val true, fruTrips := s.aux.fruTrips ++ [x] } } ∧
      (∀ e, e ≠ d.val → t.die e = s.die e) ∧ t.die d.val = { s.die d.val with
        tripped := true, fenced := true
        cause := if (s.die d.val).fenced = true ∨ (s.die d.val).held = true then (s.die d.val).cause else 3 })) ∧
    (s.powered = false → exec (.thermalTrip x) s = .next s)) ∧
  (∀ (s : State) (on : Bool), s.live = true → Sparse.wf {} s.dies = true →
    (s.lcService = false → ∀ x, exec (.d2dLoopbackTest x on) s = .next s) ∧
    (s.lcService = true →
      Answers (exec (.d2dLoopbackTest 0 on) s) (fun t => t.hub.loopback = on) ∧
      (s.sync.returns = [] → exec (.d2dLoopbackTest 0 on) s = .next { s with hub := { s.hub with loopback := on } }) ∧
      ∀ d : DieId, Answers (exec (.d2dLoopbackTest d.succ on) s) (fun t => (t.die d.val).loopback = on ∧
        (s.sync.returns = [] → t.die d.val = { s.die d.val with loopback := on } ∧ t = { s with dies := t.dies } ∧
          ∀ e, e ≠ d.val → t.die e = s.die e))))

/-- A requested cold reset, with supplies, REFCLK and MOD_RST_N right, and a keyed warm reset by an origin that may, end with empty memory, queues, contexts and kernels, a new incarnation and their cause in LAST, READY where an image was found; fuses stay, and a warm reset stores what waited for flash and is counted. A keyed die reset of a cool fenced die brings it back with its memory zero and other memory as
it was where its hub edge trains and its features fit, and else holds it; a hot die, and an origin that may not, change nothing. A tile reset of an idle tile empties it; that of a running one aborts its kernel. A context reset with no kernel left clears its fault registers and disables its arm slots; during a preemption it waits. While Z3 is held down neither die nor tile is reset; the warm reset that the loss of the firmware reserve asks for runs in the next COLD_RESET.
The model's own readings: a die whose features do not fit is held and a further reset meets it held, LOG 131; a reset is one step, LOG 28; what a die reset keeps, LOG 67; the reset for the reserve, LOG 150. -/
def Obligations.Resets : Prop :=
  (∀ (s : State) (b : Bringup),
    (s.glb.resetting = none → (s.glb.warmDue = false ∨ s.live = false) → exec (.coldReset b) s = .next s) ∧
    (s.live = true → s.glb.warmDue = true → Answers (exec (.coldReset b) s) (fun t =>
      t.glb.lastCause = 10 ∧ t.glb.warms = satAdd s.glb.warms 1 ∧ t.glb.warmDue = false ∧ t.glb.ready = (bootSlot s).isSome ∧
      t.pool.hbm = [] ∧ t.sqs = [] ∧ t.ctxs = [] ∧ t.kernels = [] ∧ t.fuses = s.fuses ∧ t.net.incarn = s.flash.incarn + 1)) ∧
    (∀ cause, s.glb.resetting = some cause → s.pwr.auxV = true → s.pwr.ioV = true → s.pwr.mainV = true → s.pwr.off = false →
      s.pwr.refclk = true → s.ctl.modRst = false → Answers (exec (.coldReset b) s) (fun t =>
        t.glb.resetting = none ∧ t.glb.lastCause = BitVec.ofNat 4 cause ∧ t.glb.ready = (bootSlot s).isSome ∧
        t.pool.hbm = [] ∧ t.pool.poison = [] ∧ t.sqs = [] ∧ t.cqs = [] ∧ t.ctxs = [] ∧ t.kernels = [] ∧ t.windows = [] ∧
        t.sync = State.reset.sync ∧ (∀ u, (t.tile u).scratch = [] ∧ (t.tile u).run = none) ∧
        t.fuses = s.fuses ∧ t.net.incarn = s.flash.incarn + 1 ∧ t.pending = s.pending ∧ t.hostMem = s.hostMem))) ∧
  (∀ (s : State) (o : Origin) (v : W64) (b : Bringup), s.live = true → originReset o = true → v.extractLsb' 24 8 = 0xA5 →
    v.getLsbD 0 = false → v.getLsbD 1 = true → Answers (exec (.warm o v b) s) (fun t =>
      t.glb.lastCause = 2 ∧ t.glb.warms = satAdd s.glb.warms 1 ∧ t.glb.ready = (bootSlot s).isSome ∧ t.flash.stores = [] ∧
      t.pool.hbm = [] ∧ t.sqs = [] ∧ t.cqs = [] ∧ t.ctxs = [] ∧ t.kernels = [] ∧ t.windows = [] ∧ t.sync = State.reset.sync ∧
      (∀ u, (t.tile u).scratch = [] ∧ (t.tile u).run = none) ∧ t.fuses = s.fuses ∧ t.net.incarn = s.flash.incarn + 1)) ∧
  (∀ (s : State) (o : Origin) (v : W64) (b : Bringup) (i : Instr), s.live = true → originReset o = false →
    (i = .warm o v b ∨ i = .dieReset o v b ∨ i = .tileGo o v ∨ i = .ctxGo o v) →
    exec i s = .next (logReg 0x200 (originReq o) s)) ∧
  (∀ (s : State) (o : Origin) (v : W64) (b : Bringup) (d : DieId), s.live = true → originReset o = true →
    v.extractLsb' 24 8 = 0xA5 → v.extractLsb' 0 2 = 0 → (v.extractLsb' 4 4).toNat = 2 ^ d.val → s.glb.dieBusy = 0 →
    (95 ≤ (s.die d.val).temp.toNat → Answers (exec (.dieReset o v b) s) (fun t =>
      t.dies = s.dies ∧ t.pool = s.pool ∧ t.tiles = s.tiles)) ∧
    (s.serviceDown 3 = true → Answers (exec (.dieReset o v b) s) (fun t => t.dies = s.dies ∧ t.pool = s.pool ∧ t.tiles = s.tiles)) ∧
    (s.serviceDown 3 = false → (s.die d.val).temp.toNat < 95 → (s.glb.revHeld.getLsbD (1 + d.val) = false ∨ (s.die d.val).trainHeld = true) →
      s.fenced d.val = true →
      Sparse.wf {} s.dies = true → Sparse.wf {} s.tiles = true →
      let trains := 4 ≤ working (failing b d.val) (List.range 16)
      let fits := s.word (1 + d.val) &&& s.glb.devFeat = s.glb.devFeat
      Answers (exec (.dieReset o v b) s) (fun t =>
        (trains ∧ fits → t.fenced d.val = false ∧ (t.die d.val).cause = 0 ∧ (t.die d.val).tripped = false) ∧
        (¬(trains ∧ fits) → t.fenced d.val = true ∧ (t.die d.val).held = true) ∧
        (∀ pa, Mem.byte t.pool.hbm pa = if (s.home pa).1 / 3 = d.val then 0 else Mem.byte s.pool.hbm pa) ∧
        (∀ u, u / 24 ≠ d.val → t.tile u = s.tile u) ∧ t.fuses = s.fuses))) ∧
  (∀ (s : State) (o : Origin) (v : W64), s.live = true → originReset o = true → v.extractLsb' 0 8 = 0 →
    let n := (v.extractLsb' 8 7).toNat
    let c := (v.extractLsb' 16 6).toNat
    (v.getLsbD 15 = true →
      (s.serviceDown 3 = true ∨ s.glb.tileBusy ≠ none ∨ 96 ≤ n ∨ s.fenced (n / 24) = true ∨ s.withdrawn n = true → Answers (exec (.tileGo o v) s) (fun t =>
        t.tiles = s.tiles ∧ t.kernels = s.kernels ∧ t.pool = s.pool)) ∧
      (s.serviceDown 3 = false → s.glb.tileBusy = none → n < 96 → s.fenced (n / 24) = false → s.withdrawn n = false → Sparse.wf {} s.tiles = true →
        (s.runKernel n = none → (s.tile n).run = none → Answers (exec (.tileGo o v) s) (fun t =>
          t.glb.tileBusy = none ∧ t.tile n = {
            waiting := (s.tile n).waiting
            arr0 := { (s.tile n).arr0 with queue := [], exec := [] }
            arr1 := { (s.tile n).arr1 with queue := [], exec := [] } } ∧
          (∀ u, u ≠ n → t.tile u = s.tile u) ∧ t.pool = s.pool ∧ t.kernels = s.kernels)) ∧
        (∀ k, s.runKernel n = some k → k.abort = none → Answers (exec (.tileGo o v) s) (fun t =>
          ∀ k', t.kernel? k.kid = some k' → k'.abort = some (.aborted, 0x30000))))) ∧
    (v.getLsbD 15 = false → v.getLsbD 22 = true →
      ((s.ctx c).state = .free → Answers (exec (.ctxGo o v) s) (fun t => t.ctxs = s.ctxs ∧ t.tiles = s.tiles ∧ t.pool = s.pool)) ∧
      (s.glb.ctxBusy = none → (s.ctx c).state ≠ .free → Sparse.wf {} s.ctxs = true →
        ((s.ctx c).preempt ≠ none → Answers (exec (.ctxGo o v) s) (fun t =>
          t.glb.ctxBusy = some c ∧ t.ctx c = { s.ctx c with resetWaits := true } ∧ t.kernels = s.kernels)) ∧
        ((s.ctx c).preempt = none → (∀ k ∈ s.kernels, k.ctx.val = c → k.live = 0) → Answers (exec (.ctxGo o v) s) (fun t =>
          t.glb.ctxBusy = none ∧ (t.ctx c).fault = 0 ∧ (t.ctx c).objFault = 0 ∧
          (∀ a, (Sparse.read {} (t.ctx c).arms a).enable = false) ∧
          (Sparse.wf {} (s.ctx c).arms = true → ∀ a,
            Sparse.read {} (t.ctx c).arms a = { Sparse.read {} (s.ctx c).arms a with enable := false }) ∧
          (t.ctx c).state = (s.ctx c).state ∧ (t.ctx c).root = (s.ctx c).root ∧ (∀ e, e ≠ c → t.ctx e = s.ctx e))))))

/-- A write of SATCNT clears EVENT and with CLR the counts, one of PMCTL with CLEAR every counter and its overflow, and sets FREEZE. A watchdog restarts its service, by Z7, which the negative of H records, and, with the third restart of the service in a second, holds it down; with Z7 down it is held down at once. An error of a core's memory that is corrected is recorded, an uncorrectable one restarts the service, or without a copy of it asks for a warm reset. Z7 stores the oldest write that waits for flash. A telemetry tick writes a record with the next SEQ and the hub's time and appends it; the thousandth adds the record of its second. An interrupt of a record to a page that no source may write is logged. A write of DBG_NEG_CTL with FREEZE freezes the
negative, and one without empties and resumes a frozen one. A register write that is misaligned or of another width is logged and discarded; the lower half of every 64-bit register that its origin may write is held, and takes effect with its upper half as the whole write does; a write below the GLB mirror's end by PF1 does nothing.
The model's own readings: what counts as the third restart, and that nothing restarts while Z7 is down, LOG 130; SEQ from 1 and the seconds, LOG 71; the memories of the control complex, LOG 126; the record of a stray route once, LOG 147. -/
def Obligations.CountersWatchdogsAndTelemetry : Prop :=
  (∀ (s : State) (o : Origin) (u : TileId) (v : W64), s.live = true → originFull o = true → Sparse.wf {} s.tiles = true →
    let x := s.tile u.val
    Answers (exec (.satcntClr o u v) s) (fun t =>
      t.tile u.val = { x with
        satEvent := x.satEvent && !v.getLsbD 48
        satCount := if v.getLsbD 49 then 0 else x.satCount
        satOver := if v.getLsbD 49 then 0 else x.satOver } ∧
      t = { s with tiles := t.tiles } ∧ ∀ n, n ≠ u.val → t.tile n = s.tile n)) ∧
  (∀ (s : State) (o : Origin) (x : Fin 5) (v : W32) (i : Instr), s.live = true → originTel o = true → Sparse.wf {} s.dies = true →
    Sparse.wf {} s.hub.pmc = true → (∀ d, Sparse.wf {} (s.die d).pmc = true) → (i = .pmcClear o x v ∨ i = .pmcFreeze o x v) →
    Answers (exec i s) (fun t =>
      (∀ k, t.pmc x.val k = if v.getLsbD 1 then { s.pmc x.val k with count := 0, ovf := false } else s.pmc x.val k) ∧
      (∀ (y : Fin 5) k, y ≠ x → t.pmc y.val k = s.pmc y.val k) ∧
      (if x.val = 0 then t.hub.freeze else (t.die (x.val - 1)).freeze) = v.getLsbD 0 ∧
      t = { s with hub := t.hub, dies := t.dies })) ∧
  (∀ (s : State) (z : Fin 8), s.live = true →
    let same (y : Fin 8) : Bool := y == z || (decide (y.val < 2) && decide (z.val < 2))
    let recent := (s.ctl.restarts.filter (fun e =>
      (e.1 == z.val || (decide (e.1 < 2) && decide (z.val < 2))) && decide ((s.hub.tel - e.2).toNat < 100000000))).length
    (s.serviceDown z.val = true → exec (.serviceWatchdogExpiry ⟨z, .watchdog⟩) s = .next s) ∧
    (s.serviceDown z.val = false → s.serviceDown 7 = true → Answers (exec (.serviceWatchdogExpiry ⟨z, .watchdog⟩) s) (fun t =>
      t = { s with ctl := { s.ctl with down := t.ctl.down } } ∧
      ∀ y : Fin 8, t.serviceDown y.val = (s.serviceDown y.val || same y))) ∧
    (s.serviceDown z.val = false → s.serviceDown 7 = false → Answers (exec (.serviceWatchdogExpiry ⟨z, .watchdog⟩) s) (fun t =>
      t = { s with
        ctl := { s.ctl with
          restarts := (z.val, s.hub.tel) :: s.ctl.restarts, down := t.ctl.down, sigIndex := if z.val = 6 then none else s.ctl.sigIndex }
        hub := { s.hub with trace := t.hub.trace, wrptr := t.hub.wrptr } } ∧
      (s.ctl.negFrozen = true → t.hub = s.hub) ∧
      (s.ctl.negFrozen = false → t.hub.wrptr = s.hub.wrptr + 1 ∧ t.hub.trace.head? = some ⟨8, s.hub.tel, BitVec.ofNat 192 z.val⟩) ∧
      (∀ y : Fin 8, t.serviceDown y.val = (s.serviceDown y.val || (same y && decide (2 ≤ recent)))))) ∧
    exec (.serviceWatchdogExpiry ⟨z, .uncorrectable true⟩) s = exec (.serviceWatchdogExpiry ⟨z, .watchdog⟩) s ∧
    exec (.serviceWatchdogExpiry ⟨z, .uncorrectable false⟩) s = .next { s with glb := { s.glb with warmDue := true } } ∧
    exec (.serviceWatchdogExpiry ⟨z, .corrected⟩) s =
      .next (logRas { cls := .corrected, code := 0x19, unit := unitZoilo z.val, info := Config.sramCode 11 } s)) ∧
  (∀ (s : State) (r : RasNew) (file : BitVec 36), r.cls ≠ .corrected → r.code ≠ 0x25 → strayRoute r.cls.code s = some file →
    let t := logRas r s
    t.ras.wrptr = s.ras.wrptr + 2 ∧
    (Sparse.find? t.ras.log (s.ras.wrptr.toNat % 256)).map (·.code) = some (BitVec.ofNat 16 r.code) ∧
    (Sparse.find? t.ras.log ((s.ras.wrptr + 1).toNat % 256)).map (fun e => (e.cls, e.code, e.addr)) =
      some (6, 0x01, BitVec.ofNat 64 (file.toNat * 4096 - 0x7F0000000000))) ∧
  (∀ s : State, s.live = true →
    (s.flash.stores = [] ∨ s.serviceDown 7 = true → exec .nextFlashStore s = .next s) ∧
    (∀ w rest, s.serviceDown 7 = false → s.flash.stores = w :: rest → exec .nextFlashStore s = .next { s with flash :=
      let f := { s.flash with stores := rest }
      match w with
      | .d2d v => { f with d2dNext := v }
      | .qrole v => { f with qroleNext := v }
      | .region st b v => { f with regionNext := Sparse.write (if b.val = 31 then 2 else 0) f.regionNext (32 * st.val + b.val) v }
      | .nodeId v => { f with nodeId := v } })) ∧
  (∀ (s : State) (m : Traffic), s.live = true → s.serviceDown 4 = false → Answers (exec (.telemetryTick m) s) (fun t =>
    t = { s with ctl := { s.ctl with telSeq := t.ctl.telSeq, telRec := t.ctl.telRec, telHist := t.ctl.telHist, telFill := t.ctl.telFill, telSecond := t.ctl.telSecond, telSecs := t.ctl.telSecs } } ∧ t.ctl.telSeq = s.ctl.telSeq + 1 ∧
    (s.ctl.telFill + 1 < 1000 → t.ctl.telFill = s.ctl.telFill + 1 ∧ t.ctl.telSecs = s.ctl.telSecs) ∧
    (1000 ≤ s.ctl.telFill + 1 → t.ctl.telFill = 0 ∧ t.ctl.telSecond = s.ctl.telSecond + 1 ∧ ∃ r : List W64,
      t.ctl.telSecs = ((s.ctl.telSecond + 1, r) :: s.ctl.telSecs).take 604800 ∧
      (r.getD 2 0).extractLsb' 0 8 = BitVec.ofNat 8 ((t.ctl.telHist.take 1000).foldl (fun m x => max m ((x.getD 2 0).extractLsb' 0 8).toNat) 0) ∧
      (r.getD 0 0).extractLsb' 32 16 = BitVec.ofNat 16 (((t.ctl.telHist.take 1000).map (fun x => ((x.getD 0 0).extractLsb' 32 16).toNat)).sum / (t.ctl.telHist.take 1000).length)) ∧ t.ctl.telHist = (t.ctl.telRec :: s.ctl.telHist).take 60000 ∧
    t.ctl.telRec.length = 8 ∧ (t.ctl.telRec.getD 0 0).extractLsb' 0 32 = s.ctl.telSeq + 1 ∧ t.ctl.telRec.getD 1 0 = s.hub.tel ∧
    (t.ctl.telRec.getD 2 0).extractLsb' 0 8 = s.hub.temp ∧ (t.ctl.telRec.getD 2 0).extractLsb' 48 7 = s.pwr.lcap ∧
    (t.ctl.telRec.getD 3 0).extractLsb' 32 16 = m.hbmMb ∧ (t.ctl.telRec.getD 3 0).extractLsb' 48 16 = m.nlTx ∧
    (t.ctl.telRec.getD 4 0).extractLsb' 0 16 = m.nlRx ∧ (t.ctl.telRec.getD 4 0).extractLsb' 32 32 = m.slots ∧
    t.ctl.telRec.getD 5 0 = s.ras.wrptr.setWidth 64)) ∧
  (∀ (s : State) (o : Origin) (v : W64), s.live = true → originFull o = true → Answers (exec (.negativeFreeze o v) s) (fun t =>
    t = { s with ctl := t.ctl, hub := t.hub, dies := t.dies } ∧ t.ctl.negFrozen = v.getLsbD 9 ∧
    t.ctl.negClasses = v.extractLsb' 0 8 ∧ t.ctl.negEn = v.getLsbD 8 ∧ t.ctl.trigFence = v.getLsbD 11 ∧
    t.ctl.trigCont = v.getLsbD 12 ∧ t.ctl.trigDegr = v.getLsbD 13 ∧ t.ctl.spill = v.getLsbD 14 ∧
    (v.getLsbD 9 = true → t.hub = s.hub ∧ t.dies = s.dies) ∧
    (v.getLsbD 9 = true → v.getLsbD 14 = true → s.ctl.negFrozen = false →
      t.ctl.spilled = s.hub.trace :: [0, 1, 2, 3].map (fun d => (s.die d).trace)) ∧
    (v.getLsbD 9 = false → s.ctl.negFrozen = false → t.hub = s.hub ∧ t.dies = s.dies) ∧
    (v.getLsbD 9 = false → s.ctl.negFrozen = true → t.hub = { s.hub with trace := [] } ∧
      (Sparse.wf {} s.dies = true → ∀ d, t.die d = { s.die d with trace := [] })))) ∧
  (∀ (s : State) (o : Origin) (off n : Nat) (v : W64), s.live = true →
    (¬((n = 4 ∨ n = 8) ∧ off % n = 0) → exec (.registerWrite o off n v) s = .next (logReg off (originReq o) s)) ∧
    ((n = 4 ∨ n = 8) → off % n = 0 → off < 0x100000 → exec (.registerWrite .pf1 off n v) s = .next s) ∧
    exec (.registerWrite .pf0 0x200010 8 v) s = exec (.pwrCapWrite .pf0 v) s ∧
    (∀ id h, off % 8 = 0 → regOf s o off = some (id, h) → id.wide = true → regMay o s id = true → (o = .pf1 → 0x100000 ≤ off) →
      exec (.registerWrite o off 4 v) s = .next { s with glb := { s.glb with
        held := Sparse.write 0 s.glb.held h (v.setWidth 32) } } ∧
      exec (.registerWrite o (off + 4) 4 v) s = exec (.registerWrite o off 8 (v.setWidth 32 ++ Sparse.read (0 : W32) s.glb.held h)) s) ∧
    (∀ q : QId, exec (.registerWrite .pf0 (0x1000000 + 0x1000 * q.val) 4 v) s = exec (.sqTail .pf0 q (v.setWidth 32)) s))

/-- While management runs, each message permitted in the life-cycle state is answered: identity, certificate, an attestation report of 10,085 bytes with the nonce and the next signature index, FW_WRITE into the slot that is not running, which is then invalid, FW_COMMIT, which marks it valid where the checks pass, the SVN, the nonce, LC_REQUEST (authorised: the fuses blow and a cold reset follows; else AUTH and
nothing but a new nonce), the log, telemetry and, while it is frozen, the negative. A message that the state does not permit is answered STATE; a second ATTEST at the same time BUSY; without an image the boot ROM serves identity and firmware alone. MCTP and PLDM messages of up to 16 KiB are answered, in RETIRED none; the FRU EEPROM is read, and written in its operator area alone, whenever VIN_AUX is valid.
A JTAG instruction is the TAP's instruction while all inputs are valid, TRST_N resets it, SAMPLE captures the contacts and fills the cells; a debug instruction acts as BYPASS where the state does not permit it and is refused by the model where it does.
The model's own readings: layouts of answers and numbers of records, LOG 72 and 73; when a request finds another of its class, and what a command without its service is answered, LOG 73; the SVN as at most 63, LOG 74; UNAVAILABLE for an ATTEST whose block is not reserved, LOG 161; the debug instructions, LOG 128; the SMBus and the FRU EEPROM's bytes, LOG 127. -/
def Obligations.ManagementMessages : Prop :=
  (∀ s : State, s.live = true →
    let noted (cmd : Nat) : State := { s with ctl := { s.ctl with msgs := (cmd, s.hub.tel) :: s.ctl.msgs.filter (fun e => e.1 != cmd) } }
    let replies (i : Instr) (cmd code : Nat) (data : List Byte) : Prop := exec i s = .next ((noted cmd).emit (.mgmt cmd code data))
    let refused (i : Instr) (cmd code : Nat) : Prop := exec i s = .next (s.emit (.mgmt cmd code []))
    let lc := s.fuses.lcState
    let boot := s.ctl.noImage = true
    let runs := s.serviceDown 5 = false
    -- the states that permit a message
    (boot ∨ runs → (lc = 5 → (∀ off data, refused (.fwWrite off data) 0x10 2) ∧ refused .fwCommit 0x11 2 ∧ refused .fwSvnCommit 0x12 2 ∧
      refused .lcNonce 0x20 2 ∧ (∀ dest n tok, refused (.lcRequest dest n tok) 0x21 2) ∧ (∀ b f n, refused (.getTelemetry b f n) 0x30 2) ∧
      (∀ f n, refused (.getLog f n) 0x31 2) ∧ (∀ x off, refused (.traceRead x off) 0x32 2)) ∧
      (lc < 2 ∨ lc = 5 → refused .getCert 0x02 2 ∧ ∀ nonce, refused (.attest nonce) 0x03 2)) ∧
    -- the boot ROM alone
    (boot → (2 ≤ lc → lc ≤ 4 → refused .getCert 0x02 4 ∧ ∀ nonce, refused (.attest nonce) 0x03 4) ∧
      (lc ≤ 4 → refused .fwSvnCommit 0x12 4 ∧ refused .lcNonce 0x20 4 ∧ (∀ dest n tok, refused (.lcRequest dest n tok) 0x21 4) ∧
        (∀ b f n, refused (.getTelemetry b f n) 0x30 4) ∧ (∀ f n, refused (.getLog f n) 0x31 4) ∧
        (∀ x off, refused (.traceRead x off) 0x32 4))) ∧
    -- a request of its class stands already
    (runs → 2 ≤ lc → lc ≤ 4 → msgStands 0x03 s = true → ∀ nonce, refused (.attest nonce) 0x03 1) ∧
    (boot ∨ runs → lc ≤ 4 → msgStands 0x11 s = true → Answers (exec .fwCommit s) (fun t =>
      t = { s.emit (.mgmt 0x11 1 []) with free := s.free + 1 } ∨
      t = fwCommitOp { s with free := s.free + 1 })) ∧
    (boot ∨ runs → (∀ cmd, msgStands cmd s = false) →
      (lc ≤ 5 → replies .getIdentity 0x01 0 (toBytes s.fuses.devid.toNat 8 ++ (List.range 5).map (fun x => s.step x) ++
        toBytes lc 1 ++ toBytes s.ctl.version.toNat 4 ++ toBytes (health s) 1)) ∧
      -- firmware
      (lc ≤ 4 → boot ∨ s.serviceDown 7 = false →
        (∀ off (data : List Byte), (4096 < data.length ∨ 2 ^ 25 < off + data.length) → replies (.fwWrite off data) 0x10 5 []) ∧
        (∀ off (data : List Byte), data.length ≤ 4096 → off + data.length ≤ 2 ^ 25 → Answers (exec (.fwWrite off data) s) (fun t =>
          t.out = s.out ++ [.mgmt 0x10 0 []] ∧ t.fuses = s.fuses ∧ t.flash = (if s.ctl.slot
            then { s.flash with slotA := ⟨Mem.setBytes s.flash.slotA.raw off data, false⟩ }
            else { s.flash with slotB := ⟨Mem.setBytes s.flash.slotB.raw off data, false⟩ }))) ∧
        (let x := if s.ctl.slot then s.flash.slotA else s.flash.slotB
         Answers (exec .fwCommit s) (fun t => t.fuses = s.fuses ∧
          (imageFits s { x with valid := true } = true → t.out = s.out ++ [.mgmt 0x11 0 [1]] ∧
            (if s.ctl.slot then t.flash.slotA else t.flash.slotB) = { x with valid := true }) ∧
          (imageFits s { x with valid := true } = false → t.out = s.out ++ [.mgmt 0x11 0 [0]] ∧ t.flash = s.flash)))) ∧
      (lc ≤ 4 → s.ctl.noImage = false → s.serviceDown 7 = true →
        (∀ off data, replies (.fwWrite off data) 0x10 4 []) ∧ replies .fwCommit 0x11 4 [])) ∧
    (runs → (∀ cmd, msgStands cmd s = false) → lc ≤ 4 →
      -- certificate and attestation
      (2 ≤ lc → s.serviceDown 6 = true → replies .getCert 0x02 4 [] ∧
        ∀ nonce : List Byte, nonce.length = 32 → replies (.attest nonce) 0x03 4 []) ∧
      (2 ≤ lc → s.serviceDown 6 = false →
        (s.flash.certPresent = true → replies .getCert 0x02 0 (Config.certificate s.fuses.devid)) ∧
        (s.flash.certPresent = false → replies .getCert 0x02 4 []) ∧
        (∀ nonce : List Byte, nonce.length = 32 → s.flash.keyPresent = false → replies (.attest nonce) 0x03 4 []) ∧
        (∀ nonce : List Byte, nonce.length = 32 → 2 ^ 28 ≤ s.flash.nextBlock → replies (.attest nonce) 0x03 4 []) ∧
        (∀ (nonce : List Byte) (i : Nat), nonce.length = 32 → s.flash.keyPresent = true →
          ((s.ctl.sigIndex = some i ∧ s.flash.nextBlock < 2 ^ 28) ∨
            (s.ctl.sigIndex = none ∧ s.flash.nextBlock + 1 < 2 ^ 28 ∧ i = 4096 * s.flash.nextBlock)) →
          Answers (exec (.attest nonce) s) (fun t => (s.ctl.sigIndex = none ∧
            t = { (noted 0x03).emit (.mgmt 0x03 4 []) with free := s.free + 1 }) ∨ ∃ r : List Byte, t.out = s.out ++ [.mgmt 0x03 0 r] ∧ r.length = 10085 ∧
            (r.drop 16).take 32 = nonce ∧ (r.drop 192).take 5 = (toBytes i 5).reverse ∧
            t.ctl.sigIndex = (if (i + 1) % 4096 = 0 then none else some (i + 1)) ∧
            t.flash = { s.flash with nextBlock := if s.ctl.sigIndex = none then s.flash.nextBlock + 1 else s.flash.nextBlock } ∧
            t.fuses = s.fuses))) ∧
      (2 ≤ lc → ∀ nonce : List Byte, nonce.length ≠ 32 → replies (.attest nonce) 0x03 5 []) ∧
      (let v := max s.fuses.svn (min 63 (hSvn (slotHeader (if s.ctl.slot then s.flash.slotB else s.flash.slotA))))
       Answers (exec .fwSvnCommit s) (fun t => t.fuses = { s.fuses with svn := v } ∧ t.out = s.out ++ [.mgmt 0x12 0 (toBytes v 1)] ∧
        t.flash = s.flash)) ∧
      -- life cycle
      replies .lcNonce 0x20 0 (toBytes s.ctl.nonce.toNat 8) ∧
      (s.serviceDown 6 = true → ∀ dest n tok, replies (.lcRequest dest n tok) 0x21 4 []) ∧
      (s.serviceDown 6 = false → ∀ dest n tok,
        let legal : Prop := (lc, dest) ∈ [(0, 1), (1, 2), (2, 3), (4, 3), (1, 5), (2, 5), (3, 5), (4, 5)] ∨ (lc = 3 ∧ dest = 4 ∧ s.fuses.returns < 3)
        let allowed : Prop := legal ∧ (Config.tokenVerifies s.fuses.devid lc dest s.ctl.nonce tok = true ∨ (lc = 3 ∧ dest = 5 ∧ n = s.ctl.nonce))
        Answers (exec (.lcRequest dest n tok) s) (fun t =>
          (allowed → t.fuses = { s.fuses with lcState := dest, returns := if lc = 3 ∧ dest = 4 then s.fuses.returns + 1 else s.fuses.returns } ∧
            t.glb = { s.glb with resetting := some 9, ready := false } ∧ t.pcie = s.freshPcie ∧ t.out = s.out ++ [.mgmt 0x21 0 []] ∧
            (dest = 5 → t.flash.keyPresent = false ∧ t.flash.certPresent = false)) ∧
          (¬allowed → t = { s with
            ctl := { s.ctl with nonce := t.ctl.nonce, msgs := t.ctl.msgs }, free := t.free, out := s.out ++ [.mgmt 0x21 3 []] }))) ∧
      -- records
      (∀ first count, ∃ r : List Byte, replies (.getLog first count) 0x31 0 r ∧
        r.length = 32 * min (min count 511) (s.ras.history.length - first)) ∧
      (∀ b first count, ∃ r, replies (.getTelemetry b first count) 0x30 0 r) ∧
      (∀ x off, (s.ctl.negFrozen = false → replies (.traceRead x off) 0x32 4 []) ∧
        (s.ctl.negFrozen = true → ∃ r, r.length ≤ 4096 ∧ replies (.traceRead x off) 0x32 0 r))) ∧
    -- MCTP and PLDM
    (runs → lc ≠ 5 →
      (∀ m : List Byte, m.length ≤ 16384 → s.pcie.linkUp = true → ∃ a, exec (.mctpControl (.vdm m)) s = .next (s.emit (.mctp a))) ∧
      (∀ m : List Byte, m.length ≤ 16384 → ∃ a, exec (.pldmRequest m) s = .next (s.emit (.mctp a))) ∧
      (∀ (m : List Byte) (pec : Option Byte), m.length ≤ 16384 → (∀ p, pec = some p → p = pecOf (0xC4 :: m)) →
        ∃ a, exec (.mctpControl (.smbus 0x62 (.mctp m pec))) s = .next (s.emit (.smbus a (pecOf (0xC5 :: a)))))) ∧
    (∀ m : List Byte, (lc = 5 ∨ 16384 < m.length ∨ s.serviceDown 5 = true) → exec (.pldmRequest m) s = .next s ∧
      exec (.mctpControl (.vdm m)) s = .next s ∧ ∀ pec, exec (.mctpControl (.smbus 0x62 (.mctp m pec))) s = .next s)) ∧
  -- the FRU EEPROM
  (∀ (s : State) (addr : BitVec 7) (x : SmbXfer), addr ≠ 0x62 → (addr ≠ 0x50 ∨ s.pwr.auxV = false) →
    exec (.mctpControl (.smbus addr x)) s = .next s) ∧
  (∀ s : State, s.pwr.auxV = true →
    (∀ off n, ∃ r : List Byte, exec (.mctpControl (.smbus 0x50 (.read off n))) s = .next (s.emit (.fru r)) ∧
      r.length = min n (0x4000 - off) ∧ ∀ k, k < r.length → 0x3800 ≤ off + k → r.getD k 0 = Mem.byte s.aux.fruArea (off + k)) ∧
    (∀ off (data : List Byte), exec (.mctpControl (.smbus 0x50 (.write off data))) s =
      .next (if 0x3800 ≤ off ∧ off + data.length ≤ 0x4000
        then { s with aux := { s.aux with fruArea := Mem.setBytes s.aux.fruArea off data } } else s.emit .nack))) ∧
  -- the TAP
  (∀ s : State, s.pwr.auxV = true → s.pwr.ioV = true → s.pwr.mainV = true →
    let takes (ir e : JtagInstr) : Prop := exec (.jtagInstruction ir) s = .next { s with ctl := { s.ctl with tap := e } }
    takes .bypass .bypass ∧ takes .extest .extest ∧ takes .clamp .clamp ∧ takes .highz .highz ∧ takes .trst .idcode ∧
    (∀ cells : Cells, exec (.jtagInstruction (.sample cells)) s =
      .next ({ s with ctl := { s.ctl with tap := .sample cells, cells := cells } }.emit
        (.scan ⟨s.pcie.perst, s.ctl.modRst, thermtripLow s, seqfltLow s⟩))) ∧
    (∃ c : W32, c.getLsbD 0 = true ∧ c.extractLsb' 12 16 = 0x4E12 ∧ c.extractLsb' 28 4 = (s.step 0).extractLsb' 4 4 ∧
      exec (.jtagInstruction .idcode) s = .next ({ s with ctl := { s.ctl with tap := .idcode } }.emit (.tap .idcode c))) ∧
    (∀ n, (s.lcService = false → takes (.debug n) .bypass) ∧
      (s.lcService = true → exec (.jtagInstruction (.debug n)) s = .refused .jtagDebug)))

/-- A new record that is CORRECTED or of the code of PC_ACCESS (0x0025) is not written where the log holds a record with its CODE and UNIT written less than 1 ms, 100,000 TEL counts, before: WRPTR and every other record stay, and one such record's COUNT rises by one, up to 0xFFFF. Every other record, of a class whose interrupt is not routed to a page that no source may write, is written: WRPTR advances by one, the record lies at WRPTR mod 256 with its code, unit, address, INFO, the hub's time and COUNT 1, and no other record changes. -/
def Obligations.RecordsCoalesce : Prop :=
  ∀ (s : State) (r : RasNew), Sparse.wf {} s.ras.log = true →
    let fresh (e : RasRec) : Prop := e.code.toNat = r.code ∧ e.unit.toNat = r.unit ∧ e.count ≠ 0 ∧ (s.hub.tel - e.time).toNat < 100000
    let joins : Prop := (r.cls = .corrected ∨ r.code = 0x25) ∧ ∃ i, fresh (Sparse.read {} s.ras.log i)
    let t := logRas r s
    (joins → t.ras.wrptr = s.ras.wrptr ∧ ∃ i, fresh (Sparse.read {} s.ras.log i) ∧
      (∀ j, Sparse.read {} t.ras.log j = (let e := Sparse.read {} s.ras.log j
        if j = i then { e with count := if e.count = 0xFFFF then 0xFFFF else e.count + 1 } else e)) ∧
      t = { s with ras := t.ras }) ∧
    (¬joins → strayRoute r.cls.code s = none → t.ras.wrptr = s.ras.wrptr + 1 ∧
      (let i := s.ras.wrptr.toNat % 256
       let e := Sparse.read {} t.ras.log i
       e.cls = BitVec.ofNat 3 r.cls.code ∧ e.code = BitVec.ofNat 16 r.code ∧ e.unit = BitVec.ofNat 8 r.unit ∧ e.count = 1 ∧
       e.addr = BitVec.ofNat 64 r.addr ∧ e.info = BitVec.ofNat 64 r.info ∧ e.time = s.hub.tel ∧
       ∀ j, j ≠ i → Sparse.read {} t.ras.log j = Sparse.read {} s.ras.log j))

/-- After reset every queue is DISABLED and every context FREE with the MX1 limit 16, the memories read 0, no object has been signalled, DRV_ACCEPT is 0 and unlocked, the module is ready and live; PERIOD of the agitator, CAP, WINDOW, L_CAP, RTO, RETRIES, the UDP port, the dividers, the interleave and the roles have their Reset values; every table has its canonical form. DEPLOYED and the fuses' contents are the model's choice (notes/assumptions 3 to 8). -/
def Obligations.ResetState : Prop :=
  let s := State.reset
  s.live = true ∧ s.pending = [] ∧ s.kernels = [] ∧ Canonical s ∧ s.fuses.svn ≤ 63 ∧ s.fuses.returns ≤ 3 ∧
  (∀ q, (s.sq q).state = .disabled ∧ (s.cq q).state = .disabled) ∧
  (∀ c, (s.ctx c).state = .free ∧ (s.ctx c).limit = 16 ∧ (s.ctx c).rootV = false) ∧
  (∀ a, Mem.byte s.pool.hbm a = 0) ∧ (∀ u a, Mem.byte (s.tile u).scratch a = 0) ∧ (∀ p, s.obj p = 0) ∧
  (∀ w, (s.window w).enable = false) ∧ (∀ d, s.fenced d = false ∧ (s.die d).ltherm = 64 ∧ (s.die d).point = 0) ∧
  (∀ k, (s.stack k).period = 0x18 ∧ (s.stack k).agEnable = true) ∧ (∀ k, s.srvDiv k = 2 ∧ s.srvAct k = 2) ∧
  (∀ q, (s.quad q).role = 1 ∧ (s.quad q).state = 0) ∧
  s.glb.drvAccept = 0 ∧ s.glb.locked = false ∧ s.glb.ready = true ∧ s.glb.warmDue = false ∧ s.ctl.noImage = false ∧ s.glb.epoch = 0 ∧ s.glb.exposed = 0 ∧ s.glb.warms = 0 ∧
  s.pwr.cap = 1800 ∧ s.pwr.window = 4000 ∧ s.pwr.lcap = 64 ∧ s.pwr.target = 0 ∧ s.pwr.group = none ∧
  s.net.rto = 0x40 ∧ s.net.retries = 8 ∧ s.net.port = 0x4D0C ∧ s.hub.srvceil = 2 ∧ s.ras.wrptr = 0 ∧ s.ctl.negEn = true

/-- From every state whose memories and tables of units list each key once, in rising order, and nothing that reads as an unlisted key does, every step leads to such a state: equal memories stay equal data. The other statements use this form as a premise. -/
def Obligations.TablesKeepTheirForm : Prop :=
  ∀ s t : State, Canonical s → step s = .next t → Canonical t

/-- In every step of every state: the fused SVN never falls and stays within 63; it changes only when FW_SVN_COMMIT is in front, and then to the SVN of the running image. The life-cycle state changes only when LC_REQUEST is in front, to the state it asks for, along a transition the manual permits, and only with a token that verifies or, from DEPLOYED to RETIRED, the current nonce; returns are counted there
alone and never exceed three. Steppings, feature words, repair maps, the key digests and revocation and the device identity never change. -/
def Obligations.FusesOnlyByTheirCommands : Prop :=
  ∀ s t : State, s.fuses.svn ≤ 63 → s.fuses.returns ≤ 3 → step s = .next t →
    t.fuses.svn ≤ 63 ∧ t.fuses.returns ≤ 3 ∧ s.fuses.svn ≤ t.fuses.svn ∧
    (t.fuses.svn ≠ s.fuses.svn → (∃ rest, s.pending = .fwSvnCommit :: rest) ∧
      t.fuses.svn = min 63 (hSvn (slotHeader (if s.ctl.slot then s.flash.slotB else s.flash.slotA)))) ∧
    (t.fuses.lcState ≠ s.fuses.lcState ∨ t.fuses.returns ≠ s.fuses.returns →
      ∃ dest n tok rest, s.pending = .lcRequest dest n tok :: rest ∧ t.fuses.lcState = dest ∧
        ((s.fuses.lcState, dest) ∈ [(0, 1), (1, 2), (2, 3), (3, 4), (4, 3), (1, 5), (2, 5), (3, 5), (4, 5)]) ∧
        (Config.tokenVerifies s.fuses.devid s.fuses.lcState dest s.ctl.nonce tok = true ∨
          (s.fuses.lcState = 3 ∧ dest = 5 ∧ n = s.ctl.nonce)) ∧
        t.fuses.returns = (if s.fuses.lcState = 3 ∧ dest = 4 then s.fuses.returns + 1 else s.fuses.returns)) ∧
    t.fuses.step = s.fuses.step ∧ t.fuses.feat = s.fuses.feat ∧ t.fuses.repair = s.fuses.repair ∧
    t.fuses.keyRevoked = s.fuses.keyRevoked ∧ t.fuses.keyDigest0 = s.fuses.keyDigest0 ∧
    t.fuses.keyDigest1 = s.fuses.keyDigest1 ∧ t.fuses.devid = s.fuses.devid
end

