-- ==== Sys2Proof/Laws/Memory.lean ====
section
/-! SUPPORT. Sparse maps and memories: what a key reads as after each operation, and that every operation keeps the
canonical form. -/

namespace Sys2Proof.Machine

/-! ### Order -/

/-- A tail of a rising list rises from its head on; every key of it is above the bound. -/
theorem Sparse.sortedFrom_cons (lo : Option Nat) (j : Nat) (a : α) (m : Sparse α) :
    Sparse.sortedFrom lo ((j, a) :: m) = true ↔ (∀ l, lo = some l → l < j) ∧ Sparse.sortedFrom (some j) m = true := by
  cases lo <;> simp [Sparse.sortedFrom]

/-- A lower bound may be lowered. -/
theorem Sparse.sortedFrom_mono {l l' : Nat} {m : Sparse α} (h : Sparse.sortedFrom (some l) m = true) (hl : l' ≤ l) :
    Sparse.sortedFrom (some l') m = true := by
  cases m with
  | nil => rfl
  | cons e m =>
    obtain ⟨j, a⟩ := e
    rw [Sparse.sortedFrom_cons] at h ⊢
    exact ⟨fun k hk => by cases hk; have := h.1 l rfl; omega, h.2⟩

/-- A lower bound may be left out. -/
theorem Sparse.sortedFrom_weaken {l : Nat} {lo : Option Nat} {m : Sparse α} (h : Sparse.sortedFrom (some l) m = true)
    (hl : ∀ l', lo = some l' → l' ≤ l) : Sparse.sortedFrom lo m = true := by
  cases lo with
  | some l' => exact Sparse.sortedFrom_mono h (hl l' rfl)
  | none =>
    cases m with
    | nil => rfl
    | cons e m =>
      obtain ⟨j, a⟩ := e
      rw [Sparse.sortedFrom_cons] at h ⊢
      exact ⟨fun l hl => (nomatch hl), h.2⟩

/-- A key at or below the lower bound is not listed. -/
theorem Sparse.find?_of_le {m : Sparse α} {l k : Nat} (h : Sparse.sortedFrom (some l) m = true) (hk : k ≤ l) :
    Sparse.find? m k = none := by
  induction m generalizing l with
  | nil => rfl
  | cons e m ih =>
    obtain ⟨j, a⟩ := e
    rw [Sparse.sortedFrom_cons] at h
    have hj := h.1 l rfl
    have : j ≠ k := by omega
    simp [Sparse.find?, this, ih h.2 (by omega)]

/-! ### Insertion -/

/-- The inserted key reads as its new value. -/
@[simp] theorem Sparse.find?_insert_self (m : Sparse α) (k : Nat) (v : α) :
    Sparse.find? (Sparse.insert m k v) k = some v := by
  induction m with
  | nil => simp [Sparse.insert, Sparse.find?]
  | cons e m ih =>
    obtain ⟨j, a⟩ := e
    unfold Sparse.insert
    split
    · simp [Sparse.find?]
    · split
      · simp [Sparse.find?]
      · rename_i h; simp [Sparse.find?, h, ih]

/-- Every other key reads as before an insertion. -/
theorem Sparse.find?_insert_other (m : Sparse α) {k k' : Nat} (v : α) (h : k' ≠ k) :
    Sparse.find? (Sparse.insert m k v) k' = Sparse.find? m k' := by
  induction m with
  | nil => simp [Sparse.insert, Sparse.find?, Ne.symm h]
  | cons e m ih =>
    obtain ⟨j, a⟩ := e
    unfold Sparse.insert
    split
    · simp [Sparse.find?, Ne.symm h]
    · split
      · rename_i hj; subst hj; simp [Sparse.find?, Ne.symm h]
      · simp [Sparse.find?, ih]

/-- An insertion keeps keys rising. -/
theorem Sparse.sortedFrom_insert {lo : Option Nat} {m : Sparse α} {k : Nat} (v : α)
    (h : Sparse.sortedFrom lo m = true) (hk : ∀ l, lo = some l → l < k) :
    Sparse.sortedFrom lo (Sparse.insert m k v) = true := by
  induction m generalizing lo with
  | nil => rw [Sparse.insert, Sparse.sortedFrom_cons]; exact ⟨hk, rfl⟩
  | cons e m ih =>
    obtain ⟨j, a⟩ := e
    rw [Sparse.sortedFrom_cons] at h
    unfold Sparse.insert
    split
    · rename_i hkj
      rw [Sparse.sortedFrom_cons, Sparse.sortedFrom_cons]
      exact ⟨hk, fun l hl => by cases hl; exact hkj, h.2⟩
    · split
      · rename_i hj; subst hj; rw [Sparse.sortedFrom_cons]; exact h
      · rw [Sparse.sortedFrom_cons]
        exact ⟨h.1, ih h.2 (fun l hl => by cases hl; omega)⟩

/-- What an insertion lists. -/
theorem Sparse.mem_insert {m : Sparse α} {k : Nat} {v : α} {e : Nat × α} (h : e ∈ Sparse.insert m k v) :
    e = (k, v) ∨ e ∈ m := by
  induction m with
  | nil => simpa [Sparse.insert] using h
  | cons x m ih =>
    obtain ⟨j, a⟩ := x
    unfold Sparse.insert at h
    split at h
    · simpa using h
    · split at h
      · rcases List.mem_cons.mp h with h | h
        · exact .inl h
        · exact .inr (List.mem_cons_of_mem _ h)
      · rcases List.mem_cons.mp h with h | h
        · exact .inr (by simp [h])
        · rcases ih h with h | h
          · exact .inl h
          · exact .inr (List.mem_cons_of_mem _ h)

/-! ### Removal -/

/-- Every other key reads as before a removal. -/
theorem Sparse.find?_drop_other (m : Sparse α) {k k' : Nat} (h : k' ≠ k) :
    Sparse.find? (Sparse.drop m k) k' = Sparse.find? m k' := by
  induction m with
  | nil => rfl
  | cons e m ih =>
    obtain ⟨j, a⟩ := e
    unfold Sparse.drop
    split
    · rename_i hj; subst hj; simp [Sparse.find?, Ne.symm h]
    · simp [Sparse.find?, ih]

/-- A removed key of a rising list is not listed. -/
theorem Sparse.find?_drop_self {lo : Option Nat} {m : Sparse α} (k : Nat) (h : Sparse.sortedFrom lo m = true) :
    Sparse.find? (Sparse.drop m k) k = none := by
  induction m generalizing lo with
  | nil => rfl
  | cons e m ih =>
    obtain ⟨j, a⟩ := e
    rw [Sparse.sortedFrom_cons] at h
    unfold Sparse.drop
    split
    · rename_i hj; exact Sparse.find?_of_le h.2 (by omega)
    · rename_i hj; simp [Sparse.find?, hj, ih h.2]

/-- A removal keeps keys rising. -/
theorem Sparse.sortedFrom_drop {lo : Option Nat} {m : Sparse α} (k : Nat) (h : Sparse.sortedFrom lo m = true) :
    Sparse.sortedFrom lo (Sparse.drop m k) = true := by
  induction m generalizing lo with
  | nil => rfl
  | cons e m ih =>
    obtain ⟨j, a⟩ := e
    rw [Sparse.sortedFrom_cons] at h
    unfold Sparse.drop
    split
    · exact Sparse.sortedFrom_weaken h.2 (fun l hl => by have := h.1 l hl; omega)
    · rw [Sparse.sortedFrom_cons]; exact ⟨h.1, ih h.2⟩

/-- What a removal lists. -/
theorem Sparse.mem_drop {m : Sparse α} {k : Nat} {e : Nat × α} (h : e ∈ Sparse.drop m k) : e ∈ m := by
  induction m with
  | nil => simp [Sparse.drop] at h
  | cons x m ih =>
    obtain ⟨j, a⟩ := x
    unfold Sparse.drop at h
    split at h
    · exact List.mem_cons_of_mem _ h
    · rcases List.mem_cons.mp h with h | h
      · simp [h]
      · exact List.mem_cons_of_mem _ (ih h)

/-- A filter keeps keys rising. -/
theorem Sparse.sortedFrom_keep {lo : Option Nat} {m : Sparse α} (p : Nat → Bool) (h : Sparse.sortedFrom lo m = true) :
    Sparse.sortedFrom lo (Sparse.keep m p) = true := by
  induction m generalizing lo with
  | nil => rfl
  | cons e m ih =>
    obtain ⟨j, a⟩ := e
    rw [Sparse.sortedFrom_cons] at h
    unfold Sparse.keep
    rw [List.filter_cons]
    split
    · rw [Sparse.sortedFrom_cons]; exact ⟨h.1, ih h.2⟩
    · exact Sparse.sortedFrom_weaken (ih h.2) (fun l hl => by have := h.1 l hl; omega)

/-! ### The canonical form -/

/-- The canonical form, in words. -/
theorem Sparse.wf_iff [DecidableEq α] (d : α) (m : Sparse α) :
    Sparse.wf d m = true ↔ Sparse.sortedFrom none m = true ∧ ∀ e ∈ m, e.2 ≠ d := by
  simp [Sparse.wf]

/-- The empty map is canonical. -/
@[simp] theorem Sparse.wf_nil [DecidableEq α] (d : α) : Sparse.wf d ([] : Sparse α) = true := rfl

/-- A write keeps the canonical form. -/
theorem Sparse.wf_write [DecidableEq α] {d : α} {m : Sparse α} (k : Nat) (v : α) (h : Sparse.wf d m = true) :
    Sparse.wf d (Sparse.write d m k v) = true := by
  rw [Sparse.wf_iff] at h ⊢
  unfold Sparse.write
  split
  · exact ⟨Sparse.sortedFrom_drop k h.1, fun e he => h.2 e (Sparse.mem_drop he)⟩
  · rename_i hv
    refine ⟨Sparse.sortedFrom_insert v h.1 (fun _ hl => by cases hl), fun e he => ?_⟩
    rcases Sparse.mem_insert he with rfl | he
    · exact hv
    · exact h.2 e he

/-- The written key reads as the written value. -/
theorem Sparse.read_write_self [DecidableEq α] {d : α} {m : Sparse α} (k : Nat) (v : α) (h : Sparse.wf d m = true) :
    Sparse.read d (Sparse.write d m k v) k = v := by
  rw [Sparse.wf_iff] at h
  unfold Sparse.read Sparse.write
  split
  · rename_i hv; rw [Sparse.find?_drop_self k h.1, hv]; rfl
  · simp

/-- Every other key reads as before a write. -/
theorem Sparse.read_write_other [DecidableEq α] (d : α) (m : Sparse α) {k k' : Nat} (v : α) (h : k' ≠ k) :
    Sparse.read d (Sparse.write d m k v) k' = Sparse.read d m k' := by
  unfold Sparse.read Sparse.write
  split
  · rw [Sparse.find?_drop_other m h]
  · rw [Sparse.find?_insert_other m v h]

/-! ### Memories -/

/-- Storing a byte keeps the canonical form. -/
theorem Memory.wf_setByte {m : Mem} (a : Nat) (b : Byte) (h : Memory.wf m = true) :
    Memory.wf (Mem.setByte m a b) = true := Sparse.wf_write a b h

/-- Storing bytes keeps the canonical form. -/
theorem Memory.wf_setBytes {m : Mem} (a : Nat) (bs : List Byte) (h : Memory.wf m = true) :
    Memory.wf (Mem.setBytes m a bs) = true := by
  induction bs generalizing m a with
  | nil => exact h
  | cons b bs ih => exact ih (a + 1) (Memory.wf_setByte a b h)

/-- Clearing a range keeps the canonical form. -/
theorem Memory.wf_zero {m : Mem} (a n : Nat) (h : Memory.wf m = true) : Memory.wf (Mem.zero m a n) = true := by
  unfold Memory.wf at h ⊢
  rw [Sparse.wf_iff] at h ⊢
  exact ⟨Sparse.sortedFrom_keep _ h.1, fun e he => h.2 e (List.mem_filter.mp he).1⟩

/-- A byte outside the stored ones reads as before. -/
theorem Mem.byte_setBytes_outside (m : Mem) (a : Nat) (bs : List Byte) {x : Nat} (h : x < a ∨ a + bs.length ≤ x) :
    Mem.byte (Mem.setBytes m a bs) x = Mem.byte m x := by
  induction bs generalizing m a with
  | nil => rfl
  | cons b bs ih =>
    simp only [List.length_cons] at h
    rw [Mem.setBytes, ih (Mem.setByte m a b) (a + 1) (by omega)]
    exact Sparse.read_write_other 0 m b (by omega)

/-- The reset memories have the canonical form. -/
theorem reset_memories_wf :
    Memory.wf State.reset.pool.hbm = true ∧ Memory.wf State.reset.hostMem = true ∧
    Sparse.wf ({} : Tile) State.reset.tiles = true := ⟨rfl, rfl, rfl⟩

end Sys2Proof.Machine
end

