-- ==== Sys2Proof/Laws/State.lean ====
section
/-! SUPPORT. What each field of the state is after each named update, and what a unit reads as after it is replaced. -/

namespace Sys2Proof.Machine

variable (s : State)

/-! ### setDie -/

@[simp] theorem State.setDie_pending (k : Nat) (x : Die) : (s.setDie k x).pending = s.pending := rfl
@[simp] theorem State.setDie_free (k : Nat) (x : Die) : (s.setDie k x).free = s.free := rfl
@[simp] theorem State.setDie_out (k : Nat) (x : Die) : (s.setDie k x).out = s.out := rfl
@[simp] theorem State.setDie_worn (k : Nat) (x : Die) : (s.setDie k x).worn = s.worn := rfl
@[simp] theorem State.setDie_fuses (k : Nat) (x : Die) : (s.setDie k x).fuses = s.fuses := rfl
@[simp] theorem State.setDie_flash (k : Nat) (x : Die) : (s.setDie k x).flash = s.flash := rfl
@[simp] theorem State.setDie_aux (k : Nat) (x : Die) : (s.setDie k x).aux = s.aux := rfl
@[simp] theorem State.setDie_glb (k : Nat) (x : Die) : (s.setDie k x).glb = s.glb := rfl
@[simp] theorem State.setDie_hub (k : Nat) (x : Die) : (s.setDie k x).hub = s.hub := rfl
@[simp] theorem State.setDie_dies (k : Nat) (x : Die) : (s.setDie k x).dies = Sparse.write {} s.dies k x := rfl
@[simp] theorem State.setDie_tiles (k : Nat) (x : Die) : (s.setDie k x).tiles = s.tiles := rfl
@[simp] theorem State.setDie_kernels (k : Nat) (x : Die) : (s.setDie k x).kernels = s.kernels := rfl
@[simp] theorem State.setDie_kidNext (k : Nat) (x : Die) : (s.setDie k x).kidNext = s.kidNext := rfl
@[simp] theorem State.setDie_pool (k : Nat) (x : Die) : (s.setDie k x).pool = s.pool := rfl
@[simp] theorem State.setDie_cores (k : Nat) (x : Die) : (s.setDie k x).cores = s.cores := rfl
@[simp] theorem State.setDie_windows (k : Nat) (x : Die) : (s.setDie k x).windows = s.windows := rfl
@[simp] theorem State.setDie_sync (k : Nat) (x : Die) : (s.setDie k x).sync = s.sync := rfl
@[simp] theorem State.setDie_sqs (k : Nat) (x : Die) : (s.setDie k x).sqs = s.sqs := rfl
@[simp] theorem State.setDie_cqs (k : Nat) (x : Die) : (s.setDie k x).cqs = s.cqs := rfl
@[simp] theorem State.setDie_ctxs (k : Nat) (x : Die) : (s.setDie k x).ctxs = s.ctxs := rfl
@[simp] theorem State.setDie_uidNext (k : Nat) (x : Die) : (s.setDie k x).uidNext = s.uidNext := rfl
@[simp] theorem State.setDie_pcie (k : Nat) (x : Die) : (s.setDie k x).pcie = s.pcie := rfl
@[simp] theorem State.setDie_hostMem (k : Nat) (x : Die) : (s.setDie k x).hostMem = s.hostMem := rfl
@[simp] theorem State.setDie_net (k : Nat) (x : Die) : (s.setDie k x).net = s.net := rfl
@[simp] theorem State.setDie_eng (k : Nat) (x : Die) : (s.setDie k x).eng = s.eng := rfl
@[simp] theorem State.setDie_pwr (k : Nat) (x : Die) : (s.setDie k x).pwr = s.pwr := rfl
@[simp] theorem State.setDie_ras (k : Nat) (x : Die) : (s.setDie k x).ras = s.ras := rfl
@[simp] theorem State.setDie_ctl (k : Nat) (x : Die) : (s.setDie k x).ctl = s.ctl := rfl

/-! ### setTile -/

@[simp] theorem State.setTile_pending (k : Nat) (x : Tile) : (s.setTile k x).pending = s.pending := rfl
@[simp] theorem State.setTile_free (k : Nat) (x : Tile) : (s.setTile k x).free = s.free := rfl
@[simp] theorem State.setTile_out (k : Nat) (x : Tile) : (s.setTile k x).out = s.out := rfl
@[simp] theorem State.setTile_worn (k : Nat) (x : Tile) : (s.setTile k x).worn = s.worn := rfl
@[simp] theorem State.setTile_fuses (k : Nat) (x : Tile) : (s.setTile k x).fuses = s.fuses := rfl
@[simp] theorem State.setTile_flash (k : Nat) (x : Tile) : (s.setTile k x).flash = s.flash := rfl
@[simp] theorem State.setTile_aux (k : Nat) (x : Tile) : (s.setTile k x).aux = s.aux := rfl
@[simp] theorem State.setTile_glb (k : Nat) (x : Tile) : (s.setTile k x).glb = s.glb := rfl
@[simp] theorem State.setTile_hub (k : Nat) (x : Tile) : (s.setTile k x).hub = s.hub := rfl
@[simp] theorem State.setTile_dies (k : Nat) (x : Tile) : (s.setTile k x).dies = s.dies := rfl
@[simp] theorem State.setTile_tiles (k : Nat) (x : Tile) : (s.setTile k x).tiles = Sparse.write {} s.tiles k x := rfl
@[simp] theorem State.setTile_kernels (k : Nat) (x : Tile) : (s.setTile k x).kernels = s.kernels := rfl
@[simp] theorem State.setTile_kidNext (k : Nat) (x : Tile) : (s.setTile k x).kidNext = s.kidNext := rfl
@[simp] theorem State.setTile_pool (k : Nat) (x : Tile) : (s.setTile k x).pool = s.pool := rfl
@[simp] theorem State.setTile_cores (k : Nat) (x : Tile) : (s.setTile k x).cores = s.cores := rfl
@[simp] theorem State.setTile_windows (k : Nat) (x : Tile) : (s.setTile k x).windows = s.windows := rfl
@[simp] theorem State.setTile_sync (k : Nat) (x : Tile) : (s.setTile k x).sync = s.sync := rfl
@[simp] theorem State.setTile_sqs (k : Nat) (x : Tile) : (s.setTile k x).sqs = s.sqs := rfl
@[simp] theorem State.setTile_cqs (k : Nat) (x : Tile) : (s.setTile k x).cqs = s.cqs := rfl
@[simp] theorem State.setTile_ctxs (k : Nat) (x : Tile) : (s.setTile k x).ctxs = s.ctxs := rfl
@[simp] theorem State.setTile_uidNext (k : Nat) (x : Tile) : (s.setTile k x).uidNext = s.uidNext := rfl
@[simp] theorem State.setTile_pcie (k : Nat) (x : Tile) : (s.setTile k x).pcie = s.pcie := rfl
@[simp] theorem State.setTile_hostMem (k : Nat) (x : Tile) : (s.setTile k x).hostMem = s.hostMem := rfl
@[simp] theorem State.setTile_net (k : Nat) (x : Tile) : (s.setTile k x).net = s.net := rfl
@[simp] theorem State.setTile_eng (k : Nat) (x : Tile) : (s.setTile k x).eng = s.eng := rfl
@[simp] theorem State.setTile_pwr (k : Nat) (x : Tile) : (s.setTile k x).pwr = s.pwr := rfl
@[simp] theorem State.setTile_ras (k : Nat) (x : Tile) : (s.setTile k x).ras = s.ras := rfl
@[simp] theorem State.setTile_ctl (k : Nat) (x : Tile) : (s.setTile k x).ctl = s.ctl := rfl

/-! ### setCtx -/

@[simp] theorem State.setCtx_pending (k : Nat) (x : Ctx) : (s.setCtx k x).pending = s.pending := rfl
@[simp] theorem State.setCtx_free (k : Nat) (x : Ctx) : (s.setCtx k x).free = s.free := rfl
@[simp] theorem State.setCtx_out (k : Nat) (x : Ctx) : (s.setCtx k x).out = s.out := rfl
@[simp] theorem State.setCtx_worn (k : Nat) (x : Ctx) : (s.setCtx k x).worn = s.worn := rfl
@[simp] theorem State.setCtx_fuses (k : Nat) (x : Ctx) : (s.setCtx k x).fuses = s.fuses := rfl
@[simp] theorem State.setCtx_flash (k : Nat) (x : Ctx) : (s.setCtx k x).flash = s.flash := rfl
@[simp] theorem State.setCtx_aux (k : Nat) (x : Ctx) : (s.setCtx k x).aux = s.aux := rfl
@[simp] theorem State.setCtx_glb (k : Nat) (x : Ctx) : (s.setCtx k x).glb = s.glb := rfl
@[simp] theorem State.setCtx_hub (k : Nat) (x : Ctx) : (s.setCtx k x).hub = s.hub := rfl
@[simp] theorem State.setCtx_dies (k : Nat) (x : Ctx) : (s.setCtx k x).dies = s.dies := rfl
@[simp] theorem State.setCtx_tiles (k : Nat) (x : Ctx) : (s.setCtx k x).tiles = s.tiles := rfl
@[simp] theorem State.setCtx_kernels (k : Nat) (x : Ctx) : (s.setCtx k x).kernels = s.kernels := rfl
@[simp] theorem State.setCtx_kidNext (k : Nat) (x : Ctx) : (s.setCtx k x).kidNext = s.kidNext := rfl
@[simp] theorem State.setCtx_pool (k : Nat) (x : Ctx) : (s.setCtx k x).pool = s.pool := rfl
@[simp] theorem State.setCtx_cores (k : Nat) (x : Ctx) : (s.setCtx k x).cores = s.cores := rfl
@[simp] theorem State.setCtx_windows (k : Nat) (x : Ctx) : (s.setCtx k x).windows = s.windows := rfl
@[simp] theorem State.setCtx_sync (k : Nat) (x : Ctx) : (s.setCtx k x).sync = s.sync := rfl
@[simp] theorem State.setCtx_sqs (k : Nat) (x : Ctx) : (s.setCtx k x).sqs = s.sqs := rfl
@[simp] theorem State.setCtx_cqs (k : Nat) (x : Ctx) : (s.setCtx k x).cqs = s.cqs := rfl
@[simp] theorem State.setCtx_ctxs (k : Nat) (x : Ctx) : (s.setCtx k x).ctxs = Sparse.write {} s.ctxs k x := rfl
@[simp] theorem State.setCtx_uidNext (k : Nat) (x : Ctx) : (s.setCtx k x).uidNext = s.uidNext := rfl
@[simp] theorem State.setCtx_pcie (k : Nat) (x : Ctx) : (s.setCtx k x).pcie = s.pcie := rfl
@[simp] theorem State.setCtx_hostMem (k : Nat) (x : Ctx) : (s.setCtx k x).hostMem = s.hostMem := rfl
@[simp] theorem State.setCtx_net (k : Nat) (x : Ctx) : (s.setCtx k x).net = s.net := rfl
@[simp] theorem State.setCtx_eng (k : Nat) (x : Ctx) : (s.setCtx k x).eng = s.eng := rfl
@[simp] theorem State.setCtx_pwr (k : Nat) (x : Ctx) : (s.setCtx k x).pwr = s.pwr := rfl
@[simp] theorem State.setCtx_ras (k : Nat) (x : Ctx) : (s.setCtx k x).ras = s.ras := rfl
@[simp] theorem State.setCtx_ctl (k : Nat) (x : Ctx) : (s.setCtx k x).ctl = s.ctl := rfl

/-! ### setSq -/

@[simp] theorem State.setSq_pending (k : Nat) (x : Sq) : (s.setSq k x).pending = s.pending := rfl
@[simp] theorem State.setSq_free (k : Nat) (x : Sq) : (s.setSq k x).free = s.free := rfl
@[simp] theorem State.setSq_out (k : Nat) (x : Sq) : (s.setSq k x).out = s.out := rfl
@[simp] theorem State.setSq_worn (k : Nat) (x : Sq) : (s.setSq k x).worn = s.worn := rfl
@[simp] theorem State.setSq_fuses (k : Nat) (x : Sq) : (s.setSq k x).fuses = s.fuses := rfl
@[simp] theorem State.setSq_flash (k : Nat) (x : Sq) : (s.setSq k x).flash = s.flash := rfl
@[simp] theorem State.setSq_aux (k : Nat) (x : Sq) : (s.setSq k x).aux = s.aux := rfl
@[simp] theorem State.setSq_glb (k : Nat) (x : Sq) : (s.setSq k x).glb = s.glb := rfl
@[simp] theorem State.setSq_hub (k : Nat) (x : Sq) : (s.setSq k x).hub = s.hub := rfl
@[simp] theorem State.setSq_dies (k : Nat) (x : Sq) : (s.setSq k x).dies = s.dies := rfl
@[simp] theorem State.setSq_tiles (k : Nat) (x : Sq) : (s.setSq k x).tiles = s.tiles := rfl
@[simp] theorem State.setSq_kernels (k : Nat) (x : Sq) : (s.setSq k x).kernels = s.kernels := rfl
@[simp] theorem State.setSq_kidNext (k : Nat) (x : Sq) : (s.setSq k x).kidNext = s.kidNext := rfl
@[simp] theorem State.setSq_pool (k : Nat) (x : Sq) : (s.setSq k x).pool = s.pool := rfl
@[simp] theorem State.setSq_cores (k : Nat) (x : Sq) : (s.setSq k x).cores = s.cores := rfl
@[simp] theorem State.setSq_windows (k : Nat) (x : Sq) : (s.setSq k x).windows = s.windows := rfl
@[simp] theorem State.setSq_sync (k : Nat) (x : Sq) : (s.setSq k x).sync = s.sync := rfl
@[simp] theorem State.setSq_sqs (k : Nat) (x : Sq) : (s.setSq k x).sqs = Sparse.write {} s.sqs k x := rfl
@[simp] theorem State.setSq_cqs (k : Nat) (x : Sq) : (s.setSq k x).cqs = s.cqs := rfl
@[simp] theorem State.setSq_ctxs (k : Nat) (x : Sq) : (s.setSq k x).ctxs = s.ctxs := rfl
@[simp] theorem State.setSq_uidNext (k : Nat) (x : Sq) : (s.setSq k x).uidNext = s.uidNext := rfl
@[simp] theorem State.setSq_pcie (k : Nat) (x : Sq) : (s.setSq k x).pcie = s.pcie := rfl
@[simp] theorem State.setSq_hostMem (k : Nat) (x : Sq) : (s.setSq k x).hostMem = s.hostMem := rfl
@[simp] theorem State.setSq_net (k : Nat) (x : Sq) : (s.setSq k x).net = s.net := rfl
@[simp] theorem State.setSq_eng (k : Nat) (x : Sq) : (s.setSq k x).eng = s.eng := rfl
@[simp] theorem State.setSq_pwr (k : Nat) (x : Sq) : (s.setSq k x).pwr = s.pwr := rfl
@[simp] theorem State.setSq_ras (k : Nat) (x : Sq) : (s.setSq k x).ras = s.ras := rfl
@[simp] theorem State.setSq_ctl (k : Nat) (x : Sq) : (s.setSq k x).ctl = s.ctl := rfl

/-! ### setCq -/

@[simp] theorem State.setCq_pending (k : Nat) (x : Cq) : (s.setCq k x).pending = s.pending := rfl
@[simp] theorem State.setCq_free (k : Nat) (x : Cq) : (s.setCq k x).free = s.free := rfl
@[simp] theorem State.setCq_out (k : Nat) (x : Cq) : (s.setCq k x).out = s.out := rfl
@[simp] theorem State.setCq_worn (k : Nat) (x : Cq) : (s.setCq k x).worn = s.worn := rfl
@[simp] theorem State.setCq_fuses (k : Nat) (x : Cq) : (s.setCq k x).fuses = s.fuses := rfl
@[simp] theorem State.setCq_flash (k : Nat) (x : Cq) : (s.setCq k x).flash = s.flash := rfl
@[simp] theorem State.setCq_aux (k : Nat) (x : Cq) : (s.setCq k x).aux = s.aux := rfl
@[simp] theorem State.setCq_glb (k : Nat) (x : Cq) : (s.setCq k x).glb = s.glb := rfl
@[simp] theorem State.setCq_hub (k : Nat) (x : Cq) : (s.setCq k x).hub = s.hub := rfl
@[simp] theorem State.setCq_dies (k : Nat) (x : Cq) : (s.setCq k x).dies = s.dies := rfl
@[simp] theorem State.setCq_tiles (k : Nat) (x : Cq) : (s.setCq k x).tiles = s.tiles := rfl
@[simp] theorem State.setCq_kernels (k : Nat) (x : Cq) : (s.setCq k x).kernels = s.kernels := rfl
@[simp] theorem State.setCq_kidNext (k : Nat) (x : Cq) : (s.setCq k x).kidNext = s.kidNext := rfl
@[simp] theorem State.setCq_pool (k : Nat) (x : Cq) : (s.setCq k x).pool = s.pool := rfl
@[simp] theorem State.setCq_cores (k : Nat) (x : Cq) : (s.setCq k x).cores = s.cores := rfl
@[simp] theorem State.setCq_windows (k : Nat) (x : Cq) : (s.setCq k x).windows = s.windows := rfl
@[simp] theorem State.setCq_sync (k : Nat) (x : Cq) : (s.setCq k x).sync = s.sync := rfl
@[simp] theorem State.setCq_sqs (k : Nat) (x : Cq) : (s.setCq k x).sqs = s.sqs := rfl
@[simp] theorem State.setCq_cqs (k : Nat) (x : Cq) : (s.setCq k x).cqs = Sparse.write {} s.cqs k x := rfl
@[simp] theorem State.setCq_ctxs (k : Nat) (x : Cq) : (s.setCq k x).ctxs = s.ctxs := rfl
@[simp] theorem State.setCq_uidNext (k : Nat) (x : Cq) : (s.setCq k x).uidNext = s.uidNext := rfl
@[simp] theorem State.setCq_pcie (k : Nat) (x : Cq) : (s.setCq k x).pcie = s.pcie := rfl
@[simp] theorem State.setCq_hostMem (k : Nat) (x : Cq) : (s.setCq k x).hostMem = s.hostMem := rfl
@[simp] theorem State.setCq_net (k : Nat) (x : Cq) : (s.setCq k x).net = s.net := rfl
@[simp] theorem State.setCq_eng (k : Nat) (x : Cq) : (s.setCq k x).eng = s.eng := rfl
@[simp] theorem State.setCq_pwr (k : Nat) (x : Cq) : (s.setCq k x).pwr = s.pwr := rfl
@[simp] theorem State.setCq_ras (k : Nat) (x : Cq) : (s.setCq k x).ras = s.ras := rfl
@[simp] theorem State.setCq_ctl (k : Nat) (x : Cq) : (s.setCq k x).ctl = s.ctl := rfl

/-! ### setWindow -/

@[simp] theorem State.setWindow_pending (k : Nat) (x : Window) : (s.setWindow k x).pending = s.pending := rfl
@[simp] theorem State.setWindow_free (k : Nat) (x : Window) : (s.setWindow k x).free = s.free := rfl
@[simp] theorem State.setWindow_out (k : Nat) (x : Window) : (s.setWindow k x).out = s.out := rfl
@[simp] theorem State.setWindow_worn (k : Nat) (x : Window) : (s.setWindow k x).worn = s.worn := rfl
@[simp] theorem State.setWindow_fuses (k : Nat) (x : Window) : (s.setWindow k x).fuses = s.fuses := rfl
@[simp] theorem State.setWindow_flash (k : Nat) (x : Window) : (s.setWindow k x).flash = s.flash := rfl
@[simp] theorem State.setWindow_aux (k : Nat) (x : Window) : (s.setWindow k x).aux = s.aux := rfl
@[simp] theorem State.setWindow_glb (k : Nat) (x : Window) : (s.setWindow k x).glb = s.glb := rfl
@[simp] theorem State.setWindow_hub (k : Nat) (x : Window) : (s.setWindow k x).hub = s.hub := rfl
@[simp] theorem State.setWindow_dies (k : Nat) (x : Window) : (s.setWindow k x).dies = s.dies := rfl
@[simp] theorem State.setWindow_tiles (k : Nat) (x : Window) : (s.setWindow k x).tiles = s.tiles := rfl
@[simp] theorem State.setWindow_kernels (k : Nat) (x : Window) : (s.setWindow k x).kernels = s.kernels := rfl
@[simp] theorem State.setWindow_kidNext (k : Nat) (x : Window) : (s.setWindow k x).kidNext = s.kidNext := rfl
@[simp] theorem State.setWindow_pool (k : Nat) (x : Window) : (s.setWindow k x).pool = s.pool := rfl
@[simp] theorem State.setWindow_cores (k : Nat) (x : Window) : (s.setWindow k x).cores = s.cores := rfl
@[simp] theorem State.setWindow_windows (k : Nat) (x : Window) : (s.setWindow k x).windows = Sparse.write {} s.windows k x := rfl
@[simp] theorem State.setWindow_sync (k : Nat) (x : Window) : (s.setWindow k x).sync = s.sync := rfl
@[simp] theorem State.setWindow_sqs (k : Nat) (x : Window) : (s.setWindow k x).sqs = s.sqs := rfl
@[simp] theorem State.setWindow_cqs (k : Nat) (x : Window) : (s.setWindow k x).cqs = s.cqs := rfl
@[simp] theorem State.setWindow_ctxs (k : Nat) (x : Window) : (s.setWindow k x).ctxs = s.ctxs := rfl
@[simp] theorem State.setWindow_uidNext (k : Nat) (x : Window) : (s.setWindow k x).uidNext = s.uidNext := rfl
@[simp] theorem State.setWindow_pcie (k : Nat) (x : Window) : (s.setWindow k x).pcie = s.pcie := rfl
@[simp] theorem State.setWindow_hostMem (k : Nat) (x : Window) : (s.setWindow k x).hostMem = s.hostMem := rfl
@[simp] theorem State.setWindow_net (k : Nat) (x : Window) : (s.setWindow k x).net = s.net := rfl
@[simp] theorem State.setWindow_eng (k : Nat) (x : Window) : (s.setWindow k x).eng = s.eng := rfl
@[simp] theorem State.setWindow_pwr (k : Nat) (x : Window) : (s.setWindow k x).pwr = s.pwr := rfl
@[simp] theorem State.setWindow_ras (k : Nat) (x : Window) : (s.setWindow k x).ras = s.ras := rfl
@[simp] theorem State.setWindow_ctl (k : Nat) (x : Window) : (s.setWindow k x).ctl = s.ctl := rfl

/-! ### setStack -/

@[simp] theorem State.setStack_pending (k : Nat) (x : Stack) : (s.setStack k x).pending = s.pending := rfl
@[simp] theorem State.setStack_free (k : Nat) (x : Stack) : (s.setStack k x).free = s.free := rfl
@[simp] theorem State.setStack_out (k : Nat) (x : Stack) : (s.setStack k x).out = s.out := rfl
@[simp] theorem State.setStack_worn (k : Nat) (x : Stack) : (s.setStack k x).worn = s.worn := rfl
@[simp] theorem State.setStack_fuses (k : Nat) (x : Stack) : (s.setStack k x).fuses = s.fuses := rfl
@[simp] theorem State.setStack_flash (k : Nat) (x : Stack) : (s.setStack k x).flash = s.flash := rfl
@[simp] theorem State.setStack_aux (k : Nat) (x : Stack) : (s.setStack k x).aux = s.aux := rfl
@[simp] theorem State.setStack_glb (k : Nat) (x : Stack) : (s.setStack k x).glb = s.glb := rfl
@[simp] theorem State.setStack_hub (k : Nat) (x : Stack) : (s.setStack k x).hub = s.hub := rfl
@[simp] theorem State.setStack_dies (k : Nat) (x : Stack) : (s.setStack k x).dies = s.dies := rfl
@[simp] theorem State.setStack_tiles (k : Nat) (x : Stack) : (s.setStack k x).tiles = s.tiles := rfl
@[simp] theorem State.setStack_kernels (k : Nat) (x : Stack) : (s.setStack k x).kernels = s.kernels := rfl
@[simp] theorem State.setStack_kidNext (k : Nat) (x : Stack) : (s.setStack k x).kidNext = s.kidNext := rfl
@[simp] theorem State.setStack_pool (k : Nat) (x : Stack) : (s.setStack k x).pool = { s.pool with stack := Sparse.write {} s.pool.stack k x } := rfl
@[simp] theorem State.setStack_cores (k : Nat) (x : Stack) : (s.setStack k x).cores = s.cores := rfl
@[simp] theorem State.setStack_windows (k : Nat) (x : Stack) : (s.setStack k x).windows = s.windows := rfl
@[simp] theorem State.setStack_sync (k : Nat) (x : Stack) : (s.setStack k x).sync = s.sync := rfl
@[simp] theorem State.setStack_sqs (k : Nat) (x : Stack) : (s.setStack k x).sqs = s.sqs := rfl
@[simp] theorem State.setStack_cqs (k : Nat) (x : Stack) : (s.setStack k x).cqs = s.cqs := rfl
@[simp] theorem State.setStack_ctxs (k : Nat) (x : Stack) : (s.setStack k x).ctxs = s.ctxs := rfl
@[simp] theorem State.setStack_uidNext (k : Nat) (x : Stack) : (s.setStack k x).uidNext = s.uidNext := rfl
@[simp] theorem State.setStack_pcie (k : Nat) (x : Stack) : (s.setStack k x).pcie = s.pcie := rfl
@[simp] theorem State.setStack_hostMem (k : Nat) (x : Stack) : (s.setStack k x).hostMem = s.hostMem := rfl
@[simp] theorem State.setStack_net (k : Nat) (x : Stack) : (s.setStack k x).net = s.net := rfl
@[simp] theorem State.setStack_eng (k : Nat) (x : Stack) : (s.setStack k x).eng = s.eng := rfl
@[simp] theorem State.setStack_pwr (k : Nat) (x : Stack) : (s.setStack k x).pwr = s.pwr := rfl
@[simp] theorem State.setStack_ras (k : Nat) (x : Stack) : (s.setStack k x).ras = s.ras := rfl
@[simp] theorem State.setStack_ctl (k : Nat) (x : Stack) : (s.setStack k x).ctl = s.ctl := rfl

/-! ### setQuad -/

@[simp] theorem State.setQuad_pending (k : Nat) (x : Quad) : (s.setQuad k x).pending = s.pending := rfl
@[simp] theorem State.setQuad_free (k : Nat) (x : Quad) : (s.setQuad k x).free = s.free := rfl
@[simp] theorem State.setQuad_out (k : Nat) (x : Quad) : (s.setQuad k x).out = s.out := rfl
@[simp] theorem State.setQuad_worn (k : Nat) (x : Quad) : (s.setQuad k x).worn = s.worn := rfl
@[simp] theorem State.setQuad_fuses (k : Nat) (x : Quad) : (s.setQuad k x).fuses = s.fuses := rfl
@[simp] theorem State.setQuad_flash (k : Nat) (x : Quad) : (s.setQuad k x).flash = s.flash := rfl
@[simp] theorem State.setQuad_aux (k : Nat) (x : Quad) : (s.setQuad k x).aux = s.aux := rfl
@[simp] theorem State.setQuad_glb (k : Nat) (x : Quad) : (s.setQuad k x).glb = s.glb := rfl
@[simp] theorem State.setQuad_hub (k : Nat) (x : Quad) : (s.setQuad k x).hub = s.hub := rfl
@[simp] theorem State.setQuad_dies (k : Nat) (x : Quad) : (s.setQuad k x).dies = s.dies := rfl
@[simp] theorem State.setQuad_tiles (k : Nat) (x : Quad) : (s.setQuad k x).tiles = s.tiles := rfl
@[simp] theorem State.setQuad_kernels (k : Nat) (x : Quad) : (s.setQuad k x).kernels = s.kernels := rfl
@[simp] theorem State.setQuad_kidNext (k : Nat) (x : Quad) : (s.setQuad k x).kidNext = s.kidNext := rfl
@[simp] theorem State.setQuad_pool (k : Nat) (x : Quad) : (s.setQuad k x).pool = s.pool := rfl
@[simp] theorem State.setQuad_cores (k : Nat) (x : Quad) : (s.setQuad k x).cores = s.cores := rfl
@[simp] theorem State.setQuad_windows (k : Nat) (x : Quad) : (s.setQuad k x).windows = s.windows := rfl
@[simp] theorem State.setQuad_sync (k : Nat) (x : Quad) : (s.setQuad k x).sync = s.sync := rfl
@[simp] theorem State.setQuad_sqs (k : Nat) (x : Quad) : (s.setQuad k x).sqs = s.sqs := rfl
@[simp] theorem State.setQuad_cqs (k : Nat) (x : Quad) : (s.setQuad k x).cqs = s.cqs := rfl
@[simp] theorem State.setQuad_ctxs (k : Nat) (x : Quad) : (s.setQuad k x).ctxs = s.ctxs := rfl
@[simp] theorem State.setQuad_uidNext (k : Nat) (x : Quad) : (s.setQuad k x).uidNext = s.uidNext := rfl
@[simp] theorem State.setQuad_pcie (k : Nat) (x : Quad) : (s.setQuad k x).pcie = s.pcie := rfl
@[simp] theorem State.setQuad_hostMem (k : Nat) (x : Quad) : (s.setQuad k x).hostMem = s.hostMem := rfl
@[simp] theorem State.setQuad_net (k : Nat) (x : Quad) : (s.setQuad k x).net = { s.net with quad := Sparse.write {} s.net.quad k x } := rfl
@[simp] theorem State.setQuad_eng (k : Nat) (x : Quad) : (s.setQuad k x).eng = s.eng := rfl
@[simp] theorem State.setQuad_pwr (k : Nat) (x : Quad) : (s.setQuad k x).pwr = s.pwr := rfl
@[simp] theorem State.setQuad_ras (k : Nat) (x : Quad) : (s.setQuad k x).ras = s.ras := rfl
@[simp] theorem State.setQuad_ctl (k : Nat) (x : Quad) : (s.setQuad k x).ctl = s.ctl := rfl

/-! ### setPeer -/

@[simp] theorem State.setPeer_pending (k : Nat) (x : Peer) : (s.setPeer k x).pending = s.pending := rfl
@[simp] theorem State.setPeer_free (k : Nat) (x : Peer) : (s.setPeer k x).free = s.free := rfl
@[simp] theorem State.setPeer_out (k : Nat) (x : Peer) : (s.setPeer k x).out = s.out := rfl
@[simp] theorem State.setPeer_worn (k : Nat) (x : Peer) : (s.setPeer k x).worn = s.worn := rfl
@[simp] theorem State.setPeer_fuses (k : Nat) (x : Peer) : (s.setPeer k x).fuses = s.fuses := rfl
@[simp] theorem State.setPeer_flash (k : Nat) (x : Peer) : (s.setPeer k x).flash = s.flash := rfl
@[simp] theorem State.setPeer_aux (k : Nat) (x : Peer) : (s.setPeer k x).aux = s.aux := rfl
@[simp] theorem State.setPeer_glb (k : Nat) (x : Peer) : (s.setPeer k x).glb = s.glb := rfl
@[simp] theorem State.setPeer_hub (k : Nat) (x : Peer) : (s.setPeer k x).hub = s.hub := rfl
@[simp] theorem State.setPeer_dies (k : Nat) (x : Peer) : (s.setPeer k x).dies = s.dies := rfl
@[simp] theorem State.setPeer_tiles (k : Nat) (x : Peer) : (s.setPeer k x).tiles = s.tiles := rfl
@[simp] theorem State.setPeer_kernels (k : Nat) (x : Peer) : (s.setPeer k x).kernels = s.kernels := rfl
@[simp] theorem State.setPeer_kidNext (k : Nat) (x : Peer) : (s.setPeer k x).kidNext = s.kidNext := rfl
@[simp] theorem State.setPeer_pool (k : Nat) (x : Peer) : (s.setPeer k x).pool = s.pool := rfl
@[simp] theorem State.setPeer_cores (k : Nat) (x : Peer) : (s.setPeer k x).cores = s.cores := rfl
@[simp] theorem State.setPeer_windows (k : Nat) (x : Peer) : (s.setPeer k x).windows = s.windows := rfl
@[simp] theorem State.setPeer_sync (k : Nat) (x : Peer) : (s.setPeer k x).sync = s.sync := rfl
@[simp] theorem State.setPeer_sqs (k : Nat) (x : Peer) : (s.setPeer k x).sqs = s.sqs := rfl
@[simp] theorem State.setPeer_cqs (k : Nat) (x : Peer) : (s.setPeer k x).cqs = s.cqs := rfl
@[simp] theorem State.setPeer_ctxs (k : Nat) (x : Peer) : (s.setPeer k x).ctxs = s.ctxs := rfl
@[simp] theorem State.setPeer_uidNext (k : Nat) (x : Peer) : (s.setPeer k x).uidNext = s.uidNext := rfl
@[simp] theorem State.setPeer_pcie (k : Nat) (x : Peer) : (s.setPeer k x).pcie = s.pcie := rfl
@[simp] theorem State.setPeer_hostMem (k : Nat) (x : Peer) : (s.setPeer k x).hostMem = s.hostMem := rfl
@[simp] theorem State.setPeer_net (k : Nat) (x : Peer) : (s.setPeer k x).net = { s.net with peers := Sparse.write {} s.net.peers k x } := rfl
@[simp] theorem State.setPeer_eng (k : Nat) (x : Peer) : (s.setPeer k x).eng = s.eng := rfl
@[simp] theorem State.setPeer_pwr (k : Nat) (x : Peer) : (s.setPeer k x).pwr = s.pwr := rfl
@[simp] theorem State.setPeer_ras (k : Nat) (x : Peer) : (s.setPeer k x).ras = s.ras := rfl
@[simp] theorem State.setPeer_ctl (k : Nat) (x : Peer) : (s.setPeer k x).ctl = s.ctl := rfl

/-! ### setNicTx -/

@[simp] theorem State.setNicTx_pending (k : Nat) (x : NicRing) : (s.setNicTx k x).pending = s.pending := rfl
@[simp] theorem State.setNicTx_free (k : Nat) (x : NicRing) : (s.setNicTx k x).free = s.free := rfl
@[simp] theorem State.setNicTx_out (k : Nat) (x : NicRing) : (s.setNicTx k x).out = s.out := rfl
@[simp] theorem State.setNicTx_worn (k : Nat) (x : NicRing) : (s.setNicTx k x).worn = s.worn := rfl
@[simp] theorem State.setNicTx_fuses (k : Nat) (x : NicRing) : (s.setNicTx k x).fuses = s.fuses := rfl
@[simp] theorem State.setNicTx_flash (k : Nat) (x : NicRing) : (s.setNicTx k x).flash = s.flash := rfl
@[simp] theorem State.setNicTx_aux (k : Nat) (x : NicRing) : (s.setNicTx k x).aux = s.aux := rfl
@[simp] theorem State.setNicTx_glb (k : Nat) (x : NicRing) : (s.setNicTx k x).glb = s.glb := rfl
@[simp] theorem State.setNicTx_hub (k : Nat) (x : NicRing) : (s.setNicTx k x).hub = s.hub := rfl
@[simp] theorem State.setNicTx_dies (k : Nat) (x : NicRing) : (s.setNicTx k x).dies = s.dies := rfl
@[simp] theorem State.setNicTx_tiles (k : Nat) (x : NicRing) : (s.setNicTx k x).tiles = s.tiles := rfl
@[simp] theorem State.setNicTx_kernels (k : Nat) (x : NicRing) : (s.setNicTx k x).kernels = s.kernels := rfl
@[simp] theorem State.setNicTx_kidNext (k : Nat) (x : NicRing) : (s.setNicTx k x).kidNext = s.kidNext := rfl
@[simp] theorem State.setNicTx_pool (k : Nat) (x : NicRing) : (s.setNicTx k x).pool = s.pool := rfl
@[simp] theorem State.setNicTx_cores (k : Nat) (x : NicRing) : (s.setNicTx k x).cores = s.cores := rfl
@[simp] theorem State.setNicTx_windows (k : Nat) (x : NicRing) : (s.setNicTx k x).windows = s.windows := rfl
@[simp] theorem State.setNicTx_sync (k : Nat) (x : NicRing) : (s.setNicTx k x).sync = s.sync := rfl
@[simp] theorem State.setNicTx_sqs (k : Nat) (x : NicRing) : (s.setNicTx k x).sqs = s.sqs := rfl
@[simp] theorem State.setNicTx_cqs (k : Nat) (x : NicRing) : (s.setNicTx k x).cqs = s.cqs := rfl
@[simp] theorem State.setNicTx_ctxs (k : Nat) (x : NicRing) : (s.setNicTx k x).ctxs = s.ctxs := rfl
@[simp] theorem State.setNicTx_uidNext (k : Nat) (x : NicRing) : (s.setNicTx k x).uidNext = s.uidNext := rfl
@[simp] theorem State.setNicTx_pcie (k : Nat) (x : NicRing) : (s.setNicTx k x).pcie = s.pcie := rfl
@[simp] theorem State.setNicTx_hostMem (k : Nat) (x : NicRing) : (s.setNicTx k x).hostMem = s.hostMem := rfl
@[simp] theorem State.setNicTx_net (k : Nat) (x : NicRing) : (s.setNicTx k x).net = { s.net with nicTx := Sparse.write {} s.net.nicTx k x } := rfl
@[simp] theorem State.setNicTx_eng (k : Nat) (x : NicRing) : (s.setNicTx k x).eng = s.eng := rfl
@[simp] theorem State.setNicTx_pwr (k : Nat) (x : NicRing) : (s.setNicTx k x).pwr = s.pwr := rfl
@[simp] theorem State.setNicTx_ras (k : Nat) (x : NicRing) : (s.setNicTx k x).ras = s.ras := rfl
@[simp] theorem State.setNicTx_ctl (k : Nat) (x : NicRing) : (s.setNicTx k x).ctl = s.ctl := rfl

/-! ### setNicRx -/

@[simp] theorem State.setNicRx_pending (k : Nat) (x : NicRing) : (s.setNicRx k x).pending = s.pending := rfl
@[simp] theorem State.setNicRx_free (k : Nat) (x : NicRing) : (s.setNicRx k x).free = s.free := rfl
@[simp] theorem State.setNicRx_out (k : Nat) (x : NicRing) : (s.setNicRx k x).out = s.out := rfl
@[simp] theorem State.setNicRx_worn (k : Nat) (x : NicRing) : (s.setNicRx k x).worn = s.worn := rfl
@[simp] theorem State.setNicRx_fuses (k : Nat) (x : NicRing) : (s.setNicRx k x).fuses = s.fuses := rfl
@[simp] theorem State.setNicRx_flash (k : Nat) (x : NicRing) : (s.setNicRx k x).flash = s.flash := rfl
@[simp] theorem State.setNicRx_aux (k : Nat) (x : NicRing) : (s.setNicRx k x).aux = s.aux := rfl
@[simp] theorem State.setNicRx_glb (k : Nat) (x : NicRing) : (s.setNicRx k x).glb = s.glb := rfl
@[simp] theorem State.setNicRx_hub (k : Nat) (x : NicRing) : (s.setNicRx k x).hub = s.hub := rfl
@[simp] theorem State.setNicRx_dies (k : Nat) (x : NicRing) : (s.setNicRx k x).dies = s.dies := rfl
@[simp] theorem State.setNicRx_tiles (k : Nat) (x : NicRing) : (s.setNicRx k x).tiles = s.tiles := rfl
@[simp] theorem State.setNicRx_kernels (k : Nat) (x : NicRing) : (s.setNicRx k x).kernels = s.kernels := rfl
@[simp] theorem State.setNicRx_kidNext (k : Nat) (x : NicRing) : (s.setNicRx k x).kidNext = s.kidNext := rfl
@[simp] theorem State.setNicRx_pool (k : Nat) (x : NicRing) : (s.setNicRx k x).pool = s.pool := rfl
@[simp] theorem State.setNicRx_cores (k : Nat) (x : NicRing) : (s.setNicRx k x).cores = s.cores := rfl
@[simp] theorem State.setNicRx_windows (k : Nat) (x : NicRing) : (s.setNicRx k x).windows = s.windows := rfl
@[simp] theorem State.setNicRx_sync (k : Nat) (x : NicRing) : (s.setNicRx k x).sync = s.sync := rfl
@[simp] theorem State.setNicRx_sqs (k : Nat) (x : NicRing) : (s.setNicRx k x).sqs = s.sqs := rfl
@[simp] theorem State.setNicRx_cqs (k : Nat) (x : NicRing) : (s.setNicRx k x).cqs = s.cqs := rfl
@[simp] theorem State.setNicRx_ctxs (k : Nat) (x : NicRing) : (s.setNicRx k x).ctxs = s.ctxs := rfl
@[simp] theorem State.setNicRx_uidNext (k : Nat) (x : NicRing) : (s.setNicRx k x).uidNext = s.uidNext := rfl
@[simp] theorem State.setNicRx_pcie (k : Nat) (x : NicRing) : (s.setNicRx k x).pcie = s.pcie := rfl
@[simp] theorem State.setNicRx_hostMem (k : Nat) (x : NicRing) : (s.setNicRx k x).hostMem = s.hostMem := rfl
@[simp] theorem State.setNicRx_net (k : Nat) (x : NicRing) : (s.setNicRx k x).net = { s.net with nicRx := Sparse.write {} s.net.nicRx k x } := rfl
@[simp] theorem State.setNicRx_eng (k : Nat) (x : NicRing) : (s.setNicRx k x).eng = s.eng := rfl
@[simp] theorem State.setNicRx_pwr (k : Nat) (x : NicRing) : (s.setNicRx k x).pwr = s.pwr := rfl
@[simp] theorem State.setNicRx_ras (k : Nat) (x : NicRing) : (s.setNicRx k x).ras = s.ras := rfl
@[simp] theorem State.setNicRx_ctl (k : Nat) (x : NicRing) : (s.setNicRx k x).ctl = s.ctl := rfl

/-! ### modKernel -/

@[simp] theorem State.modKernel_pending (k : Nat) (f : Kernel → Kernel) : (s.modKernel k f).pending = s.pending := rfl
@[simp] theorem State.modKernel_free (k : Nat) (f : Kernel → Kernel) : (s.modKernel k f).free = s.free := rfl
@[simp] theorem State.modKernel_out (k : Nat) (f : Kernel → Kernel) : (s.modKernel k f).out = s.out := rfl
@[simp] theorem State.modKernel_worn (k : Nat) (f : Kernel → Kernel) : (s.modKernel k f).worn = s.worn := rfl
@[simp] theorem State.modKernel_fuses (k : Nat) (f : Kernel → Kernel) : (s.modKernel k f).fuses = s.fuses := rfl
@[simp] theorem State.modKernel_flash (k : Nat) (f : Kernel → Kernel) : (s.modKernel k f).flash = s.flash := rfl
@[simp] theorem State.modKernel_aux (k : Nat) (f : Kernel → Kernel) : (s.modKernel k f).aux = s.aux := rfl
@[simp] theorem State.modKernel_glb (k : Nat) (f : Kernel → Kernel) : (s.modKernel k f).glb = s.glb := rfl
@[simp] theorem State.modKernel_hub (k : Nat) (f : Kernel → Kernel) : (s.modKernel k f).hub = s.hub := rfl
@[simp] theorem State.modKernel_dies (k : Nat) (f : Kernel → Kernel) : (s.modKernel k f).dies = s.dies := rfl
@[simp] theorem State.modKernel_tiles (k : Nat) (f : Kernel → Kernel) : (s.modKernel k f).tiles = s.tiles := rfl
@[simp] theorem State.modKernel_kernels (k : Nat) (f : Kernel → Kernel) : (s.modKernel k f).kernels = s.kernels.map (fun x => if x.kid = k then f x else x) := rfl
@[simp] theorem State.modKernel_kidNext (k : Nat) (f : Kernel → Kernel) : (s.modKernel k f).kidNext = s.kidNext := rfl
@[simp] theorem State.modKernel_pool (k : Nat) (f : Kernel → Kernel) : (s.modKernel k f).pool = s.pool := rfl
@[simp] theorem State.modKernel_cores (k : Nat) (f : Kernel → Kernel) : (s.modKernel k f).cores = s.cores := rfl
@[simp] theorem State.modKernel_windows (k : Nat) (f : Kernel → Kernel) : (s.modKernel k f).windows = s.windows := rfl
@[simp] theorem State.modKernel_sync (k : Nat) (f : Kernel → Kernel) : (s.modKernel k f).sync = s.sync := rfl
@[simp] theorem State.modKernel_sqs (k : Nat) (f : Kernel → Kernel) : (s.modKernel k f).sqs = s.sqs := rfl
@[simp] theorem State.modKernel_cqs (k : Nat) (f : Kernel → Kernel) : (s.modKernel k f).cqs = s.cqs := rfl
@[simp] theorem State.modKernel_ctxs (k : Nat) (f : Kernel → Kernel) : (s.modKernel k f).ctxs = s.ctxs := rfl
@[simp] theorem State.modKernel_uidNext (k : Nat) (f : Kernel → Kernel) : (s.modKernel k f).uidNext = s.uidNext := rfl
@[simp] theorem State.modKernel_pcie (k : Nat) (f : Kernel → Kernel) : (s.modKernel k f).pcie = s.pcie := rfl
@[simp] theorem State.modKernel_hostMem (k : Nat) (f : Kernel → Kernel) : (s.modKernel k f).hostMem = s.hostMem := rfl
@[simp] theorem State.modKernel_net (k : Nat) (f : Kernel → Kernel) : (s.modKernel k f).net = s.net := rfl
@[simp] theorem State.modKernel_eng (k : Nat) (f : Kernel → Kernel) : (s.modKernel k f).eng = s.eng := rfl
@[simp] theorem State.modKernel_pwr (k : Nat) (f : Kernel → Kernel) : (s.modKernel k f).pwr = s.pwr := rfl
@[simp] theorem State.modKernel_ras (k : Nat) (f : Kernel → Kernel) : (s.modKernel k f).ras = s.ras := rfl
@[simp] theorem State.modKernel_ctl (k : Nat) (f : Kernel → Kernel) : (s.modKernel k f).ctl = s.ctl := rfl

/-! ### emit -/

@[simp] theorem State.emit_pending (e : Emit) : (s.emit e).pending = s.pending := rfl
@[simp] theorem State.emit_free (e : Emit) : (s.emit e).free = s.free := rfl
@[simp] theorem State.emit_out (e : Emit) : (s.emit e).out = s.out ++ [e] := rfl
@[simp] theorem State.emit_worn (e : Emit) : (s.emit e).worn = s.worn := rfl
@[simp] theorem State.emit_fuses (e : Emit) : (s.emit e).fuses = s.fuses := rfl
@[simp] theorem State.emit_flash (e : Emit) : (s.emit e).flash = s.flash := rfl
@[simp] theorem State.emit_aux (e : Emit) : (s.emit e).aux = s.aux := rfl
@[simp] theorem State.emit_glb (e : Emit) : (s.emit e).glb = s.glb := rfl
@[simp] theorem State.emit_hub (e : Emit) : (s.emit e).hub = s.hub := rfl
@[simp] theorem State.emit_dies (e : Emit) : (s.emit e).dies = s.dies := rfl
@[simp] theorem State.emit_tiles (e : Emit) : (s.emit e).tiles = s.tiles := rfl
@[simp] theorem State.emit_kernels (e : Emit) : (s.emit e).kernels = s.kernels := rfl
@[simp] theorem State.emit_kidNext (e : Emit) : (s.emit e).kidNext = s.kidNext := rfl
@[simp] theorem State.emit_pool (e : Emit) : (s.emit e).pool = s.pool := rfl
@[simp] theorem State.emit_cores (e : Emit) : (s.emit e).cores = s.cores := rfl
@[simp] theorem State.emit_windows (e : Emit) : (s.emit e).windows = s.windows := rfl
@[simp] theorem State.emit_sync (e : Emit) : (s.emit e).sync = s.sync := rfl
@[simp] theorem State.emit_sqs (e : Emit) : (s.emit e).sqs = s.sqs := rfl
@[simp] theorem State.emit_cqs (e : Emit) : (s.emit e).cqs = s.cqs := rfl
@[simp] theorem State.emit_ctxs (e : Emit) : (s.emit e).ctxs = s.ctxs := rfl
@[simp] theorem State.emit_uidNext (e : Emit) : (s.emit e).uidNext = s.uidNext := rfl
@[simp] theorem State.emit_pcie (e : Emit) : (s.emit e).pcie = s.pcie := rfl
@[simp] theorem State.emit_hostMem (e : Emit) : (s.emit e).hostMem = s.hostMem := rfl
@[simp] theorem State.emit_net (e : Emit) : (s.emit e).net = s.net := rfl
@[simp] theorem State.emit_eng (e : Emit) : (s.emit e).eng = s.eng := rfl
@[simp] theorem State.emit_pwr (e : Emit) : (s.emit e).pwr = s.pwr := rfl
@[simp] theorem State.emit_ras (e : Emit) : (s.emit e).ras = s.ras := rfl
@[simp] theorem State.emit_ctl (e : Emit) : (s.emit e).ctl = s.ctl := rfl

/-! ### took -/

@[simp] theorem State.took_pending : (s.took).pending = s.pending := rfl
@[simp] theorem State.took_free : (s.took).free = s.free + 1 := rfl
@[simp] theorem State.took_out : (s.took).out = s.out := rfl
@[simp] theorem State.took_worn : (s.took).worn = s.worn := rfl
@[simp] theorem State.took_fuses : (s.took).fuses = s.fuses := rfl
@[simp] theorem State.took_flash : (s.took).flash = s.flash := rfl
@[simp] theorem State.took_aux : (s.took).aux = s.aux := rfl
@[simp] theorem State.took_glb : (s.took).glb = s.glb := rfl
@[simp] theorem State.took_hub : (s.took).hub = s.hub := rfl
@[simp] theorem State.took_dies : (s.took).dies = s.dies := rfl
@[simp] theorem State.took_tiles : (s.took).tiles = s.tiles := rfl
@[simp] theorem State.took_kernels : (s.took).kernels = s.kernels := rfl
@[simp] theorem State.took_kidNext : (s.took).kidNext = s.kidNext := rfl
@[simp] theorem State.took_pool : (s.took).pool = s.pool := rfl
@[simp] theorem State.took_cores : (s.took).cores = s.cores := rfl
@[simp] theorem State.took_windows : (s.took).windows = s.windows := rfl
@[simp] theorem State.took_sync : (s.took).sync = s.sync := rfl
@[simp] theorem State.took_sqs : (s.took).sqs = s.sqs := rfl
@[simp] theorem State.took_cqs : (s.took).cqs = s.cqs := rfl
@[simp] theorem State.took_ctxs : (s.took).ctxs = s.ctxs := rfl
@[simp] theorem State.took_uidNext : (s.took).uidNext = s.uidNext := rfl
@[simp] theorem State.took_pcie : (s.took).pcie = s.pcie := rfl
@[simp] theorem State.took_hostMem : (s.took).hostMem = s.hostMem := rfl
@[simp] theorem State.took_net : (s.took).net = s.net := rfl
@[simp] theorem State.took_eng : (s.took).eng = s.eng := rfl
@[simp] theorem State.took_pwr : (s.took).pwr = s.pwr := rfl
@[simp] theorem State.took_ras : (s.took).ras = s.ras := rfl
@[simp] theorem State.took_ctl : (s.took).ctl = s.ctl := rfl

/-! ### stall -/

@[simp] theorem State.stall_pending : (s.stall).pending = s.pending := rfl
@[simp] theorem State.stall_free : (s.stall).free = s.free := rfl
@[simp] theorem State.stall_out : (s.stall).out = s.out := rfl
@[simp] theorem State.stall_worn : (s.stall).worn = s.worn := rfl
@[simp] theorem State.stall_fuses : (s.stall).fuses = s.fuses := rfl
@[simp] theorem State.stall_flash : (s.stall).flash = s.flash := rfl
@[simp] theorem State.stall_aux : (s.stall).aux = s.aux := rfl
@[simp] theorem State.stall_glb : (s.stall).glb = s.glb := rfl
@[simp] theorem State.stall_hub : (s.stall).hub = s.hub := rfl
@[simp] theorem State.stall_dies : (s.stall).dies = s.dies := rfl
@[simp] theorem State.stall_tiles : (s.stall).tiles = s.tiles := rfl
@[simp] theorem State.stall_kernels : (s.stall).kernels = s.kernels := rfl
@[simp] theorem State.stall_kidNext : (s.stall).kidNext = s.kidNext := rfl
@[simp] theorem State.stall_pool : (s.stall).pool = s.pool := rfl
@[simp] theorem State.stall_cores : (s.stall).cores = s.cores := rfl
@[simp] theorem State.stall_windows : (s.stall).windows = s.windows := rfl
@[simp] theorem State.stall_sync : (s.stall).sync = s.sync := rfl
@[simp] theorem State.stall_sqs : (s.stall).sqs = s.sqs := rfl
@[simp] theorem State.stall_cqs : (s.stall).cqs = s.cqs := rfl
@[simp] theorem State.stall_ctxs : (s.stall).ctxs = s.ctxs := rfl
@[simp] theorem State.stall_uidNext : (s.stall).uidNext = s.uidNext := rfl
@[simp] theorem State.stall_pcie : (s.stall).pcie = s.pcie := rfl
@[simp] theorem State.stall_hostMem : (s.stall).hostMem = s.hostMem := rfl
@[simp] theorem State.stall_net : (s.stall).net = s.net := rfl
@[simp] theorem State.stall_eng : (s.stall).eng = { s.eng with stalled := true } := rfl
@[simp] theorem State.stall_pwr : (s.stall).pwr = s.pwr := rfl
@[simp] theorem State.stall_ras : (s.stall).ras = s.ras := rfl
@[simp] theorem State.stall_ctl : (s.stall).ctl = s.ctl := rfl

/-! ### dropHalves -/

@[simp] theorem dropHalves_pending (p : Nat → Bool) : (dropHalves p s).pending = s.pending := rfl
@[simp] theorem dropHalves_free (p : Nat → Bool) : (dropHalves p s).free = s.free := rfl
@[simp] theorem dropHalves_out (p : Nat → Bool) : (dropHalves p s).out = s.out := rfl
@[simp] theorem dropHalves_worn (p : Nat → Bool) : (dropHalves p s).worn = s.worn := rfl
@[simp] theorem dropHalves_fuses (p : Nat → Bool) : (dropHalves p s).fuses = s.fuses := rfl
@[simp] theorem dropHalves_flash (p : Nat → Bool) : (dropHalves p s).flash = s.flash := rfl
@[simp] theorem dropHalves_aux (p : Nat → Bool) : (dropHalves p s).aux = s.aux := rfl
@[simp] theorem dropHalves_glb (p : Nat → Bool) : (dropHalves p s).glb = { s.glb with held := Sparse.keep s.glb.held (fun k => !p k) } := rfl
@[simp] theorem dropHalves_hub (p : Nat → Bool) : (dropHalves p s).hub = s.hub := rfl
@[simp] theorem dropHalves_dies (p : Nat → Bool) : (dropHalves p s).dies = s.dies := rfl
@[simp] theorem dropHalves_tiles (p : Nat → Bool) : (dropHalves p s).tiles = s.tiles := rfl
@[simp] theorem dropHalves_kernels (p : Nat → Bool) : (dropHalves p s).kernels = s.kernels := rfl
@[simp] theorem dropHalves_kidNext (p : Nat → Bool) : (dropHalves p s).kidNext = s.kidNext := rfl
@[simp] theorem dropHalves_pool (p : Nat → Bool) : (dropHalves p s).pool = s.pool := rfl
@[simp] theorem dropHalves_cores (p : Nat → Bool) : (dropHalves p s).cores = s.cores := rfl
@[simp] theorem dropHalves_windows (p : Nat → Bool) : (dropHalves p s).windows = s.windows := rfl
@[simp] theorem dropHalves_sync (p : Nat → Bool) : (dropHalves p s).sync = s.sync := rfl
@[simp] theorem dropHalves_sqs (p : Nat → Bool) : (dropHalves p s).sqs = s.sqs := rfl
@[simp] theorem dropHalves_cqs (p : Nat → Bool) : (dropHalves p s).cqs = s.cqs := rfl
@[simp] theorem dropHalves_ctxs (p : Nat → Bool) : (dropHalves p s).ctxs = s.ctxs := rfl
@[simp] theorem dropHalves_uidNext (p : Nat → Bool) : (dropHalves p s).uidNext = s.uidNext := rfl
@[simp] theorem dropHalves_pcie (p : Nat → Bool) : (dropHalves p s).pcie = s.pcie := rfl
@[simp] theorem dropHalves_hostMem (p : Nat → Bool) : (dropHalves p s).hostMem = s.hostMem := rfl
@[simp] theorem dropHalves_net (p : Nat → Bool) : (dropHalves p s).net = s.net := rfl
@[simp] theorem dropHalves_eng (p : Nat → Bool) : (dropHalves p s).eng = s.eng := rfl
@[simp] theorem dropHalves_pwr (p : Nat → Bool) : (dropHalves p s).pwr = s.pwr := rfl
@[simp] theorem dropHalves_ras (p : Nat → Bool) : (dropHalves p s).ras = s.ras := rfl
@[simp] theorem dropHalves_ctl (p : Nat → Bool) : (dropHalves p s).ctl = s.ctl := rfl

/-! ### modDie -/

@[simp] theorem State.modDie_pending (k : Nat) (f : Die → Die) : (s.modDie k f).pending = s.pending := rfl
@[simp] theorem State.modDie_free (k : Nat) (f : Die → Die) : (s.modDie k f).free = s.free := rfl
@[simp] theorem State.modDie_out (k : Nat) (f : Die → Die) : (s.modDie k f).out = s.out := rfl
@[simp] theorem State.modDie_worn (k : Nat) (f : Die → Die) : (s.modDie k f).worn = s.worn := rfl
@[simp] theorem State.modDie_fuses (k : Nat) (f : Die → Die) : (s.modDie k f).fuses = s.fuses := rfl
@[simp] theorem State.modDie_flash (k : Nat) (f : Die → Die) : (s.modDie k f).flash = s.flash := rfl
@[simp] theorem State.modDie_aux (k : Nat) (f : Die → Die) : (s.modDie k f).aux = s.aux := rfl
@[simp] theorem State.modDie_glb (k : Nat) (f : Die → Die) : (s.modDie k f).glb = s.glb := rfl
@[simp] theorem State.modDie_hub (k : Nat) (f : Die → Die) : (s.modDie k f).hub = s.hub := rfl
@[simp] theorem State.modDie_dies (k : Nat) (f : Die → Die) : (s.modDie k f).dies = Sparse.write {} s.dies k (f (s.die k)) := rfl
@[simp] theorem State.modDie_tiles (k : Nat) (f : Die → Die) : (s.modDie k f).tiles = s.tiles := rfl
@[simp] theorem State.modDie_kernels (k : Nat) (f : Die → Die) : (s.modDie k f).kernels = s.kernels := rfl
@[simp] theorem State.modDie_kidNext (k : Nat) (f : Die → Die) : (s.modDie k f).kidNext = s.kidNext := rfl
@[simp] theorem State.modDie_pool (k : Nat) (f : Die → Die) : (s.modDie k f).pool = s.pool := rfl
@[simp] theorem State.modDie_cores (k : Nat) (f : Die → Die) : (s.modDie k f).cores = s.cores := rfl
@[simp] theorem State.modDie_windows (k : Nat) (f : Die → Die) : (s.modDie k f).windows = s.windows := rfl
@[simp] theorem State.modDie_sync (k : Nat) (f : Die → Die) : (s.modDie k f).sync = s.sync := rfl
@[simp] theorem State.modDie_sqs (k : Nat) (f : Die → Die) : (s.modDie k f).sqs = s.sqs := rfl
@[simp] theorem State.modDie_cqs (k : Nat) (f : Die → Die) : (s.modDie k f).cqs = s.cqs := rfl
@[simp] theorem State.modDie_ctxs (k : Nat) (f : Die → Die) : (s.modDie k f).ctxs = s.ctxs := rfl
@[simp] theorem State.modDie_uidNext (k : Nat) (f : Die → Die) : (s.modDie k f).uidNext = s.uidNext := rfl
@[simp] theorem State.modDie_pcie (k : Nat) (f : Die → Die) : (s.modDie k f).pcie = s.pcie := rfl
@[simp] theorem State.modDie_hostMem (k : Nat) (f : Die → Die) : (s.modDie k f).hostMem = s.hostMem := rfl
@[simp] theorem State.modDie_net (k : Nat) (f : Die → Die) : (s.modDie k f).net = s.net := rfl
@[simp] theorem State.modDie_eng (k : Nat) (f : Die → Die) : (s.modDie k f).eng = s.eng := rfl
@[simp] theorem State.modDie_pwr (k : Nat) (f : Die → Die) : (s.modDie k f).pwr = s.pwr := rfl
@[simp] theorem State.modDie_ras (k : Nat) (f : Die → Die) : (s.modDie k f).ras = s.ras := rfl
@[simp] theorem State.modDie_ctl (k : Nat) (f : Die → Die) : (s.modDie k f).ctl = s.ctl := rfl

/-! ### modTile -/

@[simp] theorem State.modTile_pending (k : Nat) (f : Tile → Tile) : (s.modTile k f).pending = s.pending := rfl
@[simp] theorem State.modTile_free (k : Nat) (f : Tile → Tile) : (s.modTile k f).free = s.free := rfl
@[simp] theorem State.modTile_out (k : Nat) (f : Tile → Tile) : (s.modTile k f).out = s.out := rfl
@[simp] theorem State.modTile_worn (k : Nat) (f : Tile → Tile) : (s.modTile k f).worn = s.worn := rfl
@[simp] theorem State.modTile_fuses (k : Nat) (f : Tile → Tile) : (s.modTile k f).fuses = s.fuses := rfl
@[simp] theorem State.modTile_flash (k : Nat) (f : Tile → Tile) : (s.modTile k f).flash = s.flash := rfl
@[simp] theorem State.modTile_aux (k : Nat) (f : Tile → Tile) : (s.modTile k f).aux = s.aux := rfl
@[simp] theorem State.modTile_glb (k : Nat) (f : Tile → Tile) : (s.modTile k f).glb = s.glb := rfl
@[simp] theorem State.modTile_hub (k : Nat) (f : Tile → Tile) : (s.modTile k f).hub = s.hub := rfl
@[simp] theorem State.modTile_dies (k : Nat) (f : Tile → Tile) : (s.modTile k f).dies = s.dies := rfl
@[simp] theorem State.modTile_tiles (k : Nat) (f : Tile → Tile) : (s.modTile k f).tiles = Sparse.write {} s.tiles k (f (s.tile k)) := rfl
@[simp] theorem State.modTile_kernels (k : Nat) (f : Tile → Tile) : (s.modTile k f).kernels = s.kernels := rfl
@[simp] theorem State.modTile_kidNext (k : Nat) (f : Tile → Tile) : (s.modTile k f).kidNext = s.kidNext := rfl
@[simp] theorem State.modTile_pool (k : Nat) (f : Tile → Tile) : (s.modTile k f).pool = s.pool := rfl
@[simp] theorem State.modTile_cores (k : Nat) (f : Tile → Tile) : (s.modTile k f).cores = s.cores := rfl
@[simp] theorem State.modTile_windows (k : Nat) (f : Tile → Tile) : (s.modTile k f).windows = s.windows := rfl
@[simp] theorem State.modTile_sync (k : Nat) (f : Tile → Tile) : (s.modTile k f).sync = s.sync := rfl
@[simp] theorem State.modTile_sqs (k : Nat) (f : Tile → Tile) : (s.modTile k f).sqs = s.sqs := rfl
@[simp] theorem State.modTile_cqs (k : Nat) (f : Tile → Tile) : (s.modTile k f).cqs = s.cqs := rfl
@[simp] theorem State.modTile_ctxs (k : Nat) (f : Tile → Tile) : (s.modTile k f).ctxs = s.ctxs := rfl
@[simp] theorem State.modTile_uidNext (k : Nat) (f : Tile → Tile) : (s.modTile k f).uidNext = s.uidNext := rfl
@[simp] theorem State.modTile_pcie (k : Nat) (f : Tile → Tile) : (s.modTile k f).pcie = s.pcie := rfl
@[simp] theorem State.modTile_hostMem (k : Nat) (f : Tile → Tile) : (s.modTile k f).hostMem = s.hostMem := rfl
@[simp] theorem State.modTile_net (k : Nat) (f : Tile → Tile) : (s.modTile k f).net = s.net := rfl
@[simp] theorem State.modTile_eng (k : Nat) (f : Tile → Tile) : (s.modTile k f).eng = s.eng := rfl
@[simp] theorem State.modTile_pwr (k : Nat) (f : Tile → Tile) : (s.modTile k f).pwr = s.pwr := rfl
@[simp] theorem State.modTile_ras (k : Nat) (f : Tile → Tile) : (s.modTile k f).ras = s.ras := rfl
@[simp] theorem State.modTile_ctl (k : Nat) (f : Tile → Tile) : (s.modTile k f).ctl = s.ctl := rfl

/-! ### modCtx -/

@[simp] theorem State.modCtx_pending (k : Nat) (f : Ctx → Ctx) : (s.modCtx k f).pending = s.pending := rfl
@[simp] theorem State.modCtx_free (k : Nat) (f : Ctx → Ctx) : (s.modCtx k f).free = s.free := rfl
@[simp] theorem State.modCtx_out (k : Nat) (f : Ctx → Ctx) : (s.modCtx k f).out = s.out := rfl
@[simp] theorem State.modCtx_worn (k : Nat) (f : Ctx → Ctx) : (s.modCtx k f).worn = s.worn := rfl
@[simp] theorem State.modCtx_fuses (k : Nat) (f : Ctx → Ctx) : (s.modCtx k f).fuses = s.fuses := rfl
@[simp] theorem State.modCtx_flash (k : Nat) (f : Ctx → Ctx) : (s.modCtx k f).flash = s.flash := rfl
@[simp] theorem State.modCtx_aux (k : Nat) (f : Ctx → Ctx) : (s.modCtx k f).aux = s.aux := rfl
@[simp] theorem State.modCtx_glb (k : Nat) (f : Ctx → Ctx) : (s.modCtx k f).glb = s.glb := rfl
@[simp] theorem State.modCtx_hub (k : Nat) (f : Ctx → Ctx) : (s.modCtx k f).hub = s.hub := rfl
@[simp] theorem State.modCtx_dies (k : Nat) (f : Ctx → Ctx) : (s.modCtx k f).dies = s.dies := rfl
@[simp] theorem State.modCtx_tiles (k : Nat) (f : Ctx → Ctx) : (s.modCtx k f).tiles = s.tiles := rfl
@[simp] theorem State.modCtx_kernels (k : Nat) (f : Ctx → Ctx) : (s.modCtx k f).kernels = s.kernels := rfl
@[simp] theorem State.modCtx_kidNext (k : Nat) (f : Ctx → Ctx) : (s.modCtx k f).kidNext = s.kidNext := rfl
@[simp] theorem State.modCtx_pool (k : Nat) (f : Ctx → Ctx) : (s.modCtx k f).pool = s.pool := rfl
@[simp] theorem State.modCtx_cores (k : Nat) (f : Ctx → Ctx) : (s.modCtx k f).cores = s.cores := rfl
@[simp] theorem State.modCtx_windows (k : Nat) (f : Ctx → Ctx) : (s.modCtx k f).windows = s.windows := rfl
@[simp] theorem State.modCtx_sync (k : Nat) (f : Ctx → Ctx) : (s.modCtx k f).sync = s.sync := rfl
@[simp] theorem State.modCtx_sqs (k : Nat) (f : Ctx → Ctx) : (s.modCtx k f).sqs = s.sqs := rfl
@[simp] theorem State.modCtx_cqs (k : Nat) (f : Ctx → Ctx) : (s.modCtx k f).cqs = s.cqs := rfl
@[simp] theorem State.modCtx_ctxs (k : Nat) (f : Ctx → Ctx) : (s.modCtx k f).ctxs = Sparse.write {} s.ctxs k (f (s.ctx k)) := rfl
@[simp] theorem State.modCtx_uidNext (k : Nat) (f : Ctx → Ctx) : (s.modCtx k f).uidNext = s.uidNext := rfl
@[simp] theorem State.modCtx_pcie (k : Nat) (f : Ctx → Ctx) : (s.modCtx k f).pcie = s.pcie := rfl
@[simp] theorem State.modCtx_hostMem (k : Nat) (f : Ctx → Ctx) : (s.modCtx k f).hostMem = s.hostMem := rfl
@[simp] theorem State.modCtx_net (k : Nat) (f : Ctx → Ctx) : (s.modCtx k f).net = s.net := rfl
@[simp] theorem State.modCtx_eng (k : Nat) (f : Ctx → Ctx) : (s.modCtx k f).eng = s.eng := rfl
@[simp] theorem State.modCtx_pwr (k : Nat) (f : Ctx → Ctx) : (s.modCtx k f).pwr = s.pwr := rfl
@[simp] theorem State.modCtx_ras (k : Nat) (f : Ctx → Ctx) : (s.modCtx k f).ras = s.ras := rfl
@[simp] theorem State.modCtx_ctl (k : Nat) (f : Ctx → Ctx) : (s.modCtx k f).ctl = s.ctl := rfl

/-! ### modSq -/

@[simp] theorem State.modSq_pending (k : Nat) (f : Sq → Sq) : (s.modSq k f).pending = s.pending := rfl
@[simp] theorem State.modSq_free (k : Nat) (f : Sq → Sq) : (s.modSq k f).free = s.free := rfl
@[simp] theorem State.modSq_out (k : Nat) (f : Sq → Sq) : (s.modSq k f).out = s.out := rfl
@[simp] theorem State.modSq_worn (k : Nat) (f : Sq → Sq) : (s.modSq k f).worn = s.worn := rfl
@[simp] theorem State.modSq_fuses (k : Nat) (f : Sq → Sq) : (s.modSq k f).fuses = s.fuses := rfl
@[simp] theorem State.modSq_flash (k : Nat) (f : Sq → Sq) : (s.modSq k f).flash = s.flash := rfl
@[simp] theorem State.modSq_aux (k : Nat) (f : Sq → Sq) : (s.modSq k f).aux = s.aux := rfl
@[simp] theorem State.modSq_glb (k : Nat) (f : Sq → Sq) : (s.modSq k f).glb = s.glb := rfl
@[simp] theorem State.modSq_hub (k : Nat) (f : Sq → Sq) : (s.modSq k f).hub = s.hub := rfl
@[simp] theorem State.modSq_dies (k : Nat) (f : Sq → Sq) : (s.modSq k f).dies = s.dies := rfl
@[simp] theorem State.modSq_tiles (k : Nat) (f : Sq → Sq) : (s.modSq k f).tiles = s.tiles := rfl
@[simp] theorem State.modSq_kernels (k : Nat) (f : Sq → Sq) : (s.modSq k f).kernels = s.kernels := rfl
@[simp] theorem State.modSq_kidNext (k : Nat) (f : Sq → Sq) : (s.modSq k f).kidNext = s.kidNext := rfl
@[simp] theorem State.modSq_pool (k : Nat) (f : Sq → Sq) : (s.modSq k f).pool = s.pool := rfl
@[simp] theorem State.modSq_cores (k : Nat) (f : Sq → Sq) : (s.modSq k f).cores = s.cores := rfl
@[simp] theorem State.modSq_windows (k : Nat) (f : Sq → Sq) : (s.modSq k f).windows = s.windows := rfl
@[simp] theorem State.modSq_sync (k : Nat) (f : Sq → Sq) : (s.modSq k f).sync = s.sync := rfl
@[simp] theorem State.modSq_sqs (k : Nat) (f : Sq → Sq) : (s.modSq k f).sqs = Sparse.write {} s.sqs k (f (s.sq k)) := rfl
@[simp] theorem State.modSq_cqs (k : Nat) (f : Sq → Sq) : (s.modSq k f).cqs = s.cqs := rfl
@[simp] theorem State.modSq_ctxs (k : Nat) (f : Sq → Sq) : (s.modSq k f).ctxs = s.ctxs := rfl
@[simp] theorem State.modSq_uidNext (k : Nat) (f : Sq → Sq) : (s.modSq k f).uidNext = s.uidNext := rfl
@[simp] theorem State.modSq_pcie (k : Nat) (f : Sq → Sq) : (s.modSq k f).pcie = s.pcie := rfl
@[simp] theorem State.modSq_hostMem (k : Nat) (f : Sq → Sq) : (s.modSq k f).hostMem = s.hostMem := rfl
@[simp] theorem State.modSq_net (k : Nat) (f : Sq → Sq) : (s.modSq k f).net = s.net := rfl
@[simp] theorem State.modSq_eng (k : Nat) (f : Sq → Sq) : (s.modSq k f).eng = s.eng := rfl
@[simp] theorem State.modSq_pwr (k : Nat) (f : Sq → Sq) : (s.modSq k f).pwr = s.pwr := rfl
@[simp] theorem State.modSq_ras (k : Nat) (f : Sq → Sq) : (s.modSq k f).ras = s.ras := rfl
@[simp] theorem State.modSq_ctl (k : Nat) (f : Sq → Sq) : (s.modSq k f).ctl = s.ctl := rfl

/-! ### modCq -/

@[simp] theorem State.modCq_pending (k : Nat) (f : Cq → Cq) : (s.modCq k f).pending = s.pending := rfl
@[simp] theorem State.modCq_free (k : Nat) (f : Cq → Cq) : (s.modCq k f).free = s.free := rfl
@[simp] theorem State.modCq_out (k : Nat) (f : Cq → Cq) : (s.modCq k f).out = s.out := rfl
@[simp] theorem State.modCq_worn (k : Nat) (f : Cq → Cq) : (s.modCq k f).worn = s.worn := rfl
@[simp] theorem State.modCq_fuses (k : Nat) (f : Cq → Cq) : (s.modCq k f).fuses = s.fuses := rfl
@[simp] theorem State.modCq_flash (k : Nat) (f : Cq → Cq) : (s.modCq k f).flash = s.flash := rfl
@[simp] theorem State.modCq_aux (k : Nat) (f : Cq → Cq) : (s.modCq k f).aux = s.aux := rfl
@[simp] theorem State.modCq_glb (k : Nat) (f : Cq → Cq) : (s.modCq k f).glb = s.glb := rfl
@[simp] theorem State.modCq_hub (k : Nat) (f : Cq → Cq) : (s.modCq k f).hub = s.hub := rfl
@[simp] theorem State.modCq_dies (k : Nat) (f : Cq → Cq) : (s.modCq k f).dies = s.dies := rfl
@[simp] theorem State.modCq_tiles (k : Nat) (f : Cq → Cq) : (s.modCq k f).tiles = s.tiles := rfl
@[simp] theorem State.modCq_kernels (k : Nat) (f : Cq → Cq) : (s.modCq k f).kernels = s.kernels := rfl
@[simp] theorem State.modCq_kidNext (k : Nat) (f : Cq → Cq) : (s.modCq k f).kidNext = s.kidNext := rfl
@[simp] theorem State.modCq_pool (k : Nat) (f : Cq → Cq) : (s.modCq k f).pool = s.pool := rfl
@[simp] theorem State.modCq_cores (k : Nat) (f : Cq → Cq) : (s.modCq k f).cores = s.cores := rfl
@[simp] theorem State.modCq_windows (k : Nat) (f : Cq → Cq) : (s.modCq k f).windows = s.windows := rfl
@[simp] theorem State.modCq_sync (k : Nat) (f : Cq → Cq) : (s.modCq k f).sync = s.sync := rfl
@[simp] theorem State.modCq_sqs (k : Nat) (f : Cq → Cq) : (s.modCq k f).sqs = s.sqs := rfl
@[simp] theorem State.modCq_cqs (k : Nat) (f : Cq → Cq) : (s.modCq k f).cqs = Sparse.write {} s.cqs k (f (s.cq k)) := rfl
@[simp] theorem State.modCq_ctxs (k : Nat) (f : Cq → Cq) : (s.modCq k f).ctxs = s.ctxs := rfl
@[simp] theorem State.modCq_uidNext (k : Nat) (f : Cq → Cq) : (s.modCq k f).uidNext = s.uidNext := rfl
@[simp] theorem State.modCq_pcie (k : Nat) (f : Cq → Cq) : (s.modCq k f).pcie = s.pcie := rfl
@[simp] theorem State.modCq_hostMem (k : Nat) (f : Cq → Cq) : (s.modCq k f).hostMem = s.hostMem := rfl
@[simp] theorem State.modCq_net (k : Nat) (f : Cq → Cq) : (s.modCq k f).net = s.net := rfl
@[simp] theorem State.modCq_eng (k : Nat) (f : Cq → Cq) : (s.modCq k f).eng = s.eng := rfl
@[simp] theorem State.modCq_pwr (k : Nat) (f : Cq → Cq) : (s.modCq k f).pwr = s.pwr := rfl
@[simp] theorem State.modCq_ras (k : Nat) (f : Cq → Cq) : (s.modCq k f).ras = s.ras := rfl
@[simp] theorem State.modCq_ctl (k : Nat) (f : Cq → Cq) : (s.modCq k f).ctl = s.ctl := rfl

/-! ### modWindow -/

@[simp] theorem State.modWindow_pending (k : Nat) (f : Window → Window) : (s.modWindow k f).pending = s.pending := rfl
@[simp] theorem State.modWindow_free (k : Nat) (f : Window → Window) : (s.modWindow k f).free = s.free := rfl
@[simp] theorem State.modWindow_out (k : Nat) (f : Window → Window) : (s.modWindow k f).out = s.out := rfl
@[simp] theorem State.modWindow_worn (k : Nat) (f : Window → Window) : (s.modWindow k f).worn = s.worn := rfl
@[simp] theorem State.modWindow_fuses (k : Nat) (f : Window → Window) : (s.modWindow k f).fuses = s.fuses := rfl
@[simp] theorem State.modWindow_flash (k : Nat) (f : Window → Window) : (s.modWindow k f).flash = s.flash := rfl
@[simp] theorem State.modWindow_aux (k : Nat) (f : Window → Window) : (s.modWindow k f).aux = s.aux := rfl
@[simp] theorem State.modWindow_glb (k : Nat) (f : Window → Window) : (s.modWindow k f).glb = s.glb := rfl
@[simp] theorem State.modWindow_hub (k : Nat) (f : Window → Window) : (s.modWindow k f).hub = s.hub := rfl
@[simp] theorem State.modWindow_dies (k : Nat) (f : Window → Window) : (s.modWindow k f).dies = s.dies := rfl
@[simp] theorem State.modWindow_tiles (k : Nat) (f : Window → Window) : (s.modWindow k f).tiles = s.tiles := rfl
@[simp] theorem State.modWindow_kernels (k : Nat) (f : Window → Window) : (s.modWindow k f).kernels = s.kernels := rfl
@[simp] theorem State.modWindow_kidNext (k : Nat) (f : Window → Window) : (s.modWindow k f).kidNext = s.kidNext := rfl
@[simp] theorem State.modWindow_pool (k : Nat) (f : Window → Window) : (s.modWindow k f).pool = s.pool := rfl
@[simp] theorem State.modWindow_cores (k : Nat) (f : Window → Window) : (s.modWindow k f).cores = s.cores := rfl
@[simp] theorem State.modWindow_windows (k : Nat) (f : Window → Window) : (s.modWindow k f).windows = Sparse.write {} s.windows k (f (s.window k)) := rfl
@[simp] theorem State.modWindow_sync (k : Nat) (f : Window → Window) : (s.modWindow k f).sync = s.sync := rfl
@[simp] theorem State.modWindow_sqs (k : Nat) (f : Window → Window) : (s.modWindow k f).sqs = s.sqs := rfl
@[simp] theorem State.modWindow_cqs (k : Nat) (f : Window → Window) : (s.modWindow k f).cqs = s.cqs := rfl
@[simp] theorem State.modWindow_ctxs (k : Nat) (f : Window → Window) : (s.modWindow k f).ctxs = s.ctxs := rfl
@[simp] theorem State.modWindow_uidNext (k : Nat) (f : Window → Window) : (s.modWindow k f).uidNext = s.uidNext := rfl
@[simp] theorem State.modWindow_pcie (k : Nat) (f : Window → Window) : (s.modWindow k f).pcie = s.pcie := rfl
@[simp] theorem State.modWindow_hostMem (k : Nat) (f : Window → Window) : (s.modWindow k f).hostMem = s.hostMem := rfl
@[simp] theorem State.modWindow_net (k : Nat) (f : Window → Window) : (s.modWindow k f).net = s.net := rfl
@[simp] theorem State.modWindow_eng (k : Nat) (f : Window → Window) : (s.modWindow k f).eng = s.eng := rfl
@[simp] theorem State.modWindow_pwr (k : Nat) (f : Window → Window) : (s.modWindow k f).pwr = s.pwr := rfl
@[simp] theorem State.modWindow_ras (k : Nat) (f : Window → Window) : (s.modWindow k f).ras = s.ras := rfl
@[simp] theorem State.modWindow_ctl (k : Nat) (f : Window → Window) : (s.modWindow k f).ctl = s.ctl := rfl

/-! ### modStack -/

@[simp] theorem State.modStack_pending (k : Nat) (f : Stack → Stack) : (s.modStack k f).pending = s.pending := rfl
@[simp] theorem State.modStack_free (k : Nat) (f : Stack → Stack) : (s.modStack k f).free = s.free := rfl
@[simp] theorem State.modStack_out (k : Nat) (f : Stack → Stack) : (s.modStack k f).out = s.out := rfl
@[simp] theorem State.modStack_worn (k : Nat) (f : Stack → Stack) : (s.modStack k f).worn = s.worn := rfl
@[simp] theorem State.modStack_fuses (k : Nat) (f : Stack → Stack) : (s.modStack k f).fuses = s.fuses := rfl
@[simp] theorem State.modStack_flash (k : Nat) (f : Stack → Stack) : (s.modStack k f).flash = s.flash := rfl
@[simp] theorem State.modStack_aux (k : Nat) (f : Stack → Stack) : (s.modStack k f).aux = s.aux := rfl
@[simp] theorem State.modStack_glb (k : Nat) (f : Stack → Stack) : (s.modStack k f).glb = s.glb := rfl
@[simp] theorem State.modStack_hub (k : Nat) (f : Stack → Stack) : (s.modStack k f).hub = s.hub := rfl
@[simp] theorem State.modStack_dies (k : Nat) (f : Stack → Stack) : (s.modStack k f).dies = s.dies := rfl
@[simp] theorem State.modStack_tiles (k : Nat) (f : Stack → Stack) : (s.modStack k f).tiles = s.tiles := rfl
@[simp] theorem State.modStack_kernels (k : Nat) (f : Stack → Stack) : (s.modStack k f).kernels = s.kernels := rfl
@[simp] theorem State.modStack_kidNext (k : Nat) (f : Stack → Stack) : (s.modStack k f).kidNext = s.kidNext := rfl
@[simp] theorem State.modStack_pool (k : Nat) (f : Stack → Stack) : (s.modStack k f).pool = { s.pool with stack := Sparse.write {} s.pool.stack k (f (s.stack k)) } := rfl
@[simp] theorem State.modStack_cores (k : Nat) (f : Stack → Stack) : (s.modStack k f).cores = s.cores := rfl
@[simp] theorem State.modStack_windows (k : Nat) (f : Stack → Stack) : (s.modStack k f).windows = s.windows := rfl
@[simp] theorem State.modStack_sync (k : Nat) (f : Stack → Stack) : (s.modStack k f).sync = s.sync := rfl
@[simp] theorem State.modStack_sqs (k : Nat) (f : Stack → Stack) : (s.modStack k f).sqs = s.sqs := rfl
@[simp] theorem State.modStack_cqs (k : Nat) (f : Stack → Stack) : (s.modStack k f).cqs = s.cqs := rfl
@[simp] theorem State.modStack_ctxs (k : Nat) (f : Stack → Stack) : (s.modStack k f).ctxs = s.ctxs := rfl
@[simp] theorem State.modStack_uidNext (k : Nat) (f : Stack → Stack) : (s.modStack k f).uidNext = s.uidNext := rfl
@[simp] theorem State.modStack_pcie (k : Nat) (f : Stack → Stack) : (s.modStack k f).pcie = s.pcie := rfl
@[simp] theorem State.modStack_hostMem (k : Nat) (f : Stack → Stack) : (s.modStack k f).hostMem = s.hostMem := rfl
@[simp] theorem State.modStack_net (k : Nat) (f : Stack → Stack) : (s.modStack k f).net = s.net := rfl
@[simp] theorem State.modStack_eng (k : Nat) (f : Stack → Stack) : (s.modStack k f).eng = s.eng := rfl
@[simp] theorem State.modStack_pwr (k : Nat) (f : Stack → Stack) : (s.modStack k f).pwr = s.pwr := rfl
@[simp] theorem State.modStack_ras (k : Nat) (f : Stack → Stack) : (s.modStack k f).ras = s.ras := rfl
@[simp] theorem State.modStack_ctl (k : Nat) (f : Stack → Stack) : (s.modStack k f).ctl = s.ctl := rfl

/-! ### modQuad -/

@[simp] theorem State.modQuad_pending (k : Nat) (f : Quad → Quad) : (s.modQuad k f).pending = s.pending := rfl
@[simp] theorem State.modQuad_free (k : Nat) (f : Quad → Quad) : (s.modQuad k f).free = s.free := rfl
@[simp] theorem State.modQuad_out (k : Nat) (f : Quad → Quad) : (s.modQuad k f).out = s.out := rfl
@[simp] theorem State.modQuad_worn (k : Nat) (f : Quad → Quad) : (s.modQuad k f).worn = s.worn := rfl
@[simp] theorem State.modQuad_fuses (k : Nat) (f : Quad → Quad) : (s.modQuad k f).fuses = s.fuses := rfl
@[simp] theorem State.modQuad_flash (k : Nat) (f : Quad → Quad) : (s.modQuad k f).flash = s.flash := rfl
@[simp] theorem State.modQuad_aux (k : Nat) (f : Quad → Quad) : (s.modQuad k f).aux = s.aux := rfl
@[simp] theorem State.modQuad_glb (k : Nat) (f : Quad → Quad) : (s.modQuad k f).glb = s.glb := rfl
@[simp] theorem State.modQuad_hub (k : Nat) (f : Quad → Quad) : (s.modQuad k f).hub = s.hub := rfl
@[simp] theorem State.modQuad_dies (k : Nat) (f : Quad → Quad) : (s.modQuad k f).dies = s.dies := rfl
@[simp] theorem State.modQuad_tiles (k : Nat) (f : Quad → Quad) : (s.modQuad k f).tiles = s.tiles := rfl
@[simp] theorem State.modQuad_kernels (k : Nat) (f : Quad → Quad) : (s.modQuad k f).kernels = s.kernels := rfl
@[simp] theorem State.modQuad_kidNext (k : Nat) (f : Quad → Quad) : (s.modQuad k f).kidNext = s.kidNext := rfl
@[simp] theorem State.modQuad_pool (k : Nat) (f : Quad → Quad) : (s.modQuad k f).pool = s.pool := rfl
@[simp] theorem State.modQuad_cores (k : Nat) (f : Quad → Quad) : (s.modQuad k f).cores = s.cores := rfl
@[simp] theorem State.modQuad_windows (k : Nat) (f : Quad → Quad) : (s.modQuad k f).windows = s.windows := rfl
@[simp] theorem State.modQuad_sync (k : Nat) (f : Quad → Quad) : (s.modQuad k f).sync = s.sync := rfl
@[simp] theorem State.modQuad_sqs (k : Nat) (f : Quad → Quad) : (s.modQuad k f).sqs = s.sqs := rfl
@[simp] theorem State.modQuad_cqs (k : Nat) (f : Quad → Quad) : (s.modQuad k f).cqs = s.cqs := rfl
@[simp] theorem State.modQuad_ctxs (k : Nat) (f : Quad → Quad) : (s.modQuad k f).ctxs = s.ctxs := rfl
@[simp] theorem State.modQuad_uidNext (k : Nat) (f : Quad → Quad) : (s.modQuad k f).uidNext = s.uidNext := rfl
@[simp] theorem State.modQuad_pcie (k : Nat) (f : Quad → Quad) : (s.modQuad k f).pcie = s.pcie := rfl
@[simp] theorem State.modQuad_hostMem (k : Nat) (f : Quad → Quad) : (s.modQuad k f).hostMem = s.hostMem := rfl
@[simp] theorem State.modQuad_net (k : Nat) (f : Quad → Quad) : (s.modQuad k f).net = { s.net with quad := Sparse.write {} s.net.quad k (f (s.quad k)) } := rfl
@[simp] theorem State.modQuad_eng (k : Nat) (f : Quad → Quad) : (s.modQuad k f).eng = s.eng := rfl
@[simp] theorem State.modQuad_pwr (k : Nat) (f : Quad → Quad) : (s.modQuad k f).pwr = s.pwr := rfl
@[simp] theorem State.modQuad_ras (k : Nat) (f : Quad → Quad) : (s.modQuad k f).ras = s.ras := rfl
@[simp] theorem State.modQuad_ctl (k : Nat) (f : Quad → Quad) : (s.modQuad k f).ctl = s.ctl := rfl

/-! ### modPeer -/

@[simp] theorem State.modPeer_pending (k : Nat) (f : Peer → Peer) : (s.modPeer k f).pending = s.pending := rfl
@[simp] theorem State.modPeer_free (k : Nat) (f : Peer → Peer) : (s.modPeer k f).free = s.free := rfl
@[simp] theorem State.modPeer_out (k : Nat) (f : Peer → Peer) : (s.modPeer k f).out = s.out := rfl
@[simp] theorem State.modPeer_worn (k : Nat) (f : Peer → Peer) : (s.modPeer k f).worn = s.worn := rfl
@[simp] theorem State.modPeer_fuses (k : Nat) (f : Peer → Peer) : (s.modPeer k f).fuses = s.fuses := rfl
@[simp] theorem State.modPeer_flash (k : Nat) (f : Peer → Peer) : (s.modPeer k f).flash = s.flash := rfl
@[simp] theorem State.modPeer_aux (k : Nat) (f : Peer → Peer) : (s.modPeer k f).aux = s.aux := rfl
@[simp] theorem State.modPeer_glb (k : Nat) (f : Peer → Peer) : (s.modPeer k f).glb = s.glb := rfl
@[simp] theorem State.modPeer_hub (k : Nat) (f : Peer → Peer) : (s.modPeer k f).hub = s.hub := rfl
@[simp] theorem State.modPeer_dies (k : Nat) (f : Peer → Peer) : (s.modPeer k f).dies = s.dies := rfl
@[simp] theorem State.modPeer_tiles (k : Nat) (f : Peer → Peer) : (s.modPeer k f).tiles = s.tiles := rfl
@[simp] theorem State.modPeer_kernels (k : Nat) (f : Peer → Peer) : (s.modPeer k f).kernels = s.kernels := rfl
@[simp] theorem State.modPeer_kidNext (k : Nat) (f : Peer → Peer) : (s.modPeer k f).kidNext = s.kidNext := rfl
@[simp] theorem State.modPeer_pool (k : Nat) (f : Peer → Peer) : (s.modPeer k f).pool = s.pool := rfl
@[simp] theorem State.modPeer_cores (k : Nat) (f : Peer → Peer) : (s.modPeer k f).cores = s.cores := rfl
@[simp] theorem State.modPeer_windows (k : Nat) (f : Peer → Peer) : (s.modPeer k f).windows = s.windows := rfl
@[simp] theorem State.modPeer_sync (k : Nat) (f : Peer → Peer) : (s.modPeer k f).sync = s.sync := rfl
@[simp] theorem State.modPeer_sqs (k : Nat) (f : Peer → Peer) : (s.modPeer k f).sqs = s.sqs := rfl
@[simp] theorem State.modPeer_cqs (k : Nat) (f : Peer → Peer) : (s.modPeer k f).cqs = s.cqs := rfl
@[simp] theorem State.modPeer_ctxs (k : Nat) (f : Peer → Peer) : (s.modPeer k f).ctxs = s.ctxs := rfl
@[simp] theorem State.modPeer_uidNext (k : Nat) (f : Peer → Peer) : (s.modPeer k f).uidNext = s.uidNext := rfl
@[simp] theorem State.modPeer_pcie (k : Nat) (f : Peer → Peer) : (s.modPeer k f).pcie = s.pcie := rfl
@[simp] theorem State.modPeer_hostMem (k : Nat) (f : Peer → Peer) : (s.modPeer k f).hostMem = s.hostMem := rfl
@[simp] theorem State.modPeer_net (k : Nat) (f : Peer → Peer) : (s.modPeer k f).net = { s.net with peers := Sparse.write {} s.net.peers k (f (s.peer k)) } := rfl
@[simp] theorem State.modPeer_eng (k : Nat) (f : Peer → Peer) : (s.modPeer k f).eng = s.eng := rfl
@[simp] theorem State.modPeer_pwr (k : Nat) (f : Peer → Peer) : (s.modPeer k f).pwr = s.pwr := rfl
@[simp] theorem State.modPeer_ras (k : Nat) (f : Peer → Peer) : (s.modPeer k f).ras = s.ras := rfl
@[simp] theorem State.modPeer_ctl (k : Nat) (f : Peer → Peer) : (s.modPeer k f).ctl = s.ctl := rfl

/-! ### modNicTx -/

@[simp] theorem State.modNicTx_pending (k : Nat) (f : NicRing → NicRing) : (s.modNicTx k f).pending = s.pending := rfl
@[simp] theorem State.modNicTx_free (k : Nat) (f : NicRing → NicRing) : (s.modNicTx k f).free = s.free := rfl
@[simp] theorem State.modNicTx_out (k : Nat) (f : NicRing → NicRing) : (s.modNicTx k f).out = s.out := rfl
@[simp] theorem State.modNicTx_worn (k : Nat) (f : NicRing → NicRing) : (s.modNicTx k f).worn = s.worn := rfl
@[simp] theorem State.modNicTx_fuses (k : Nat) (f : NicRing → NicRing) : (s.modNicTx k f).fuses = s.fuses := rfl
@[simp] theorem State.modNicTx_flash (k : Nat) (f : NicRing → NicRing) : (s.modNicTx k f).flash = s.flash := rfl
@[simp] theorem State.modNicTx_aux (k : Nat) (f : NicRing → NicRing) : (s.modNicTx k f).aux = s.aux := rfl
@[simp] theorem State.modNicTx_glb (k : Nat) (f : NicRing → NicRing) : (s.modNicTx k f).glb = s.glb := rfl
@[simp] theorem State.modNicTx_hub (k : Nat) (f : NicRing → NicRing) : (s.modNicTx k f).hub = s.hub := rfl
@[simp] theorem State.modNicTx_dies (k : Nat) (f : NicRing → NicRing) : (s.modNicTx k f).dies = s.dies := rfl
@[simp] theorem State.modNicTx_tiles (k : Nat) (f : NicRing → NicRing) : (s.modNicTx k f).tiles = s.tiles := rfl
@[simp] theorem State.modNicTx_kernels (k : Nat) (f : NicRing → NicRing) : (s.modNicTx k f).kernels = s.kernels := rfl
@[simp] theorem State.modNicTx_kidNext (k : Nat) (f : NicRing → NicRing) : (s.modNicTx k f).kidNext = s.kidNext := rfl
@[simp] theorem State.modNicTx_pool (k : Nat) (f : NicRing → NicRing) : (s.modNicTx k f).pool = s.pool := rfl
@[simp] theorem State.modNicTx_cores (k : Nat) (f : NicRing → NicRing) : (s.modNicTx k f).cores = s.cores := rfl
@[simp] theorem State.modNicTx_windows (k : Nat) (f : NicRing → NicRing) : (s.modNicTx k f).windows = s.windows := rfl
@[simp] theorem State.modNicTx_sync (k : Nat) (f : NicRing → NicRing) : (s.modNicTx k f).sync = s.sync := rfl
@[simp] theorem State.modNicTx_sqs (k : Nat) (f : NicRing → NicRing) : (s.modNicTx k f).sqs = s.sqs := rfl
@[simp] theorem State.modNicTx_cqs (k : Nat) (f : NicRing → NicRing) : (s.modNicTx k f).cqs = s.cqs := rfl
@[simp] theorem State.modNicTx_ctxs (k : Nat) (f : NicRing → NicRing) : (s.modNicTx k f).ctxs = s.ctxs := rfl
@[simp] theorem State.modNicTx_uidNext (k : Nat) (f : NicRing → NicRing) : (s.modNicTx k f).uidNext = s.uidNext := rfl
@[simp] theorem State.modNicTx_pcie (k : Nat) (f : NicRing → NicRing) : (s.modNicTx k f).pcie = s.pcie := rfl
@[simp] theorem State.modNicTx_hostMem (k : Nat) (f : NicRing → NicRing) : (s.modNicTx k f).hostMem = s.hostMem := rfl
@[simp] theorem State.modNicTx_net (k : Nat) (f : NicRing → NicRing) : (s.modNicTx k f).net = { s.net with nicTx := Sparse.write {} s.net.nicTx k (f (s.nicTx k)) } := rfl
@[simp] theorem State.modNicTx_eng (k : Nat) (f : NicRing → NicRing) : (s.modNicTx k f).eng = s.eng := rfl
@[simp] theorem State.modNicTx_pwr (k : Nat) (f : NicRing → NicRing) : (s.modNicTx k f).pwr = s.pwr := rfl
@[simp] theorem State.modNicTx_ras (k : Nat) (f : NicRing → NicRing) : (s.modNicTx k f).ras = s.ras := rfl
@[simp] theorem State.modNicTx_ctl (k : Nat) (f : NicRing → NicRing) : (s.modNicTx k f).ctl = s.ctl := rfl

/-! ### modNicRx -/

@[simp] theorem State.modNicRx_pending (k : Nat) (f : NicRing → NicRing) : (s.modNicRx k f).pending = s.pending := rfl
@[simp] theorem State.modNicRx_free (k : Nat) (f : NicRing → NicRing) : (s.modNicRx k f).free = s.free := rfl
@[simp] theorem State.modNicRx_out (k : Nat) (f : NicRing → NicRing) : (s.modNicRx k f).out = s.out := rfl
@[simp] theorem State.modNicRx_worn (k : Nat) (f : NicRing → NicRing) : (s.modNicRx k f).worn = s.worn := rfl
@[simp] theorem State.modNicRx_fuses (k : Nat) (f : NicRing → NicRing) : (s.modNicRx k f).fuses = s.fuses := rfl
@[simp] theorem State.modNicRx_flash (k : Nat) (f : NicRing → NicRing) : (s.modNicRx k f).flash = s.flash := rfl
@[simp] theorem State.modNicRx_aux (k : Nat) (f : NicRing → NicRing) : (s.modNicRx k f).aux = s.aux := rfl
@[simp] theorem State.modNicRx_glb (k : Nat) (f : NicRing → NicRing) : (s.modNicRx k f).glb = s.glb := rfl
@[simp] theorem State.modNicRx_hub (k : Nat) (f : NicRing → NicRing) : (s.modNicRx k f).hub = s.hub := rfl
@[simp] theorem State.modNicRx_dies (k : Nat) (f : NicRing → NicRing) : (s.modNicRx k f).dies = s.dies := rfl
@[simp] theorem State.modNicRx_tiles (k : Nat) (f : NicRing → NicRing) : (s.modNicRx k f).tiles = s.tiles := rfl
@[simp] theorem State.modNicRx_kernels (k : Nat) (f : NicRing → NicRing) : (s.modNicRx k f).kernels = s.kernels := rfl
@[simp] theorem State.modNicRx_kidNext (k : Nat) (f : NicRing → NicRing) : (s.modNicRx k f).kidNext = s.kidNext := rfl
@[simp] theorem State.modNicRx_pool (k : Nat) (f : NicRing → NicRing) : (s.modNicRx k f).pool = s.pool := rfl
@[simp] theorem State.modNicRx_cores (k : Nat) (f : NicRing → NicRing) : (s.modNicRx k f).cores = s.cores := rfl
@[simp] theorem State.modNicRx_windows (k : Nat) (f : NicRing → NicRing) : (s.modNicRx k f).windows = s.windows := rfl
@[simp] theorem State.modNicRx_sync (k : Nat) (f : NicRing → NicRing) : (s.modNicRx k f).sync = s.sync := rfl
@[simp] theorem State.modNicRx_sqs (k : Nat) (f : NicRing → NicRing) : (s.modNicRx k f).sqs = s.sqs := rfl
@[simp] theorem State.modNicRx_cqs (k : Nat) (f : NicRing → NicRing) : (s.modNicRx k f).cqs = s.cqs := rfl
@[simp] theorem State.modNicRx_ctxs (k : Nat) (f : NicRing → NicRing) : (s.modNicRx k f).ctxs = s.ctxs := rfl
@[simp] theorem State.modNicRx_uidNext (k : Nat) (f : NicRing → NicRing) : (s.modNicRx k f).uidNext = s.uidNext := rfl
@[simp] theorem State.modNicRx_pcie (k : Nat) (f : NicRing → NicRing) : (s.modNicRx k f).pcie = s.pcie := rfl
@[simp] theorem State.modNicRx_hostMem (k : Nat) (f : NicRing → NicRing) : (s.modNicRx k f).hostMem = s.hostMem := rfl
@[simp] theorem State.modNicRx_net (k : Nat) (f : NicRing → NicRing) : (s.modNicRx k f).net = { s.net with nicRx := Sparse.write {} s.net.nicRx k (f (s.nicRx k)) } := rfl
@[simp] theorem State.modNicRx_eng (k : Nat) (f : NicRing → NicRing) : (s.modNicRx k f).eng = s.eng := rfl
@[simp] theorem State.modNicRx_pwr (k : Nat) (f : NicRing → NicRing) : (s.modNicRx k f).pwr = s.pwr := rfl
@[simp] theorem State.modNicRx_ras (k : Nat) (f : NicRing → NicRing) : (s.modNicRx k f).ras = s.ras := rfl
@[simp] theorem State.modNicRx_ctl (k : Nat) (f : NicRing → NicRing) : (s.modNicRx k f).ctl = s.ctl := rfl

/-! ### Units after an update -/

/-- The replaced unit reads as its new value, in a canonical table. -/
theorem State.setDie_die_self (k : Nat) (x : Die) (h : Sparse.wf ({} : Die) s.dies = true) :
    (s.setDie k x).die k = x := Sparse.read_write_self k x h

/-- Every other unit reads as before. -/
theorem State.setDie_die_other {k k' : Nat} (x : Die) (h : k' ≠ k) :
    (s.setDie k x).die k' = s.die k' := Sparse.read_write_other _ _ x h

/-- The replaced unit reads as its new value, in a canonical table. -/
theorem State.setTile_tile_self (k : Nat) (x : Tile) (h : Sparse.wf ({} : Tile) s.tiles = true) :
    (s.setTile k x).tile k = x := Sparse.read_write_self k x h

/-- Every other unit reads as before. -/
theorem State.setTile_tile_other {k k' : Nat} (x : Tile) (h : k' ≠ k) :
    (s.setTile k x).tile k' = s.tile k' := Sparse.read_write_other _ _ x h

/-- The replaced unit reads as its new value, in a canonical table. -/
theorem State.setCtx_ctx_self (k : Nat) (x : Ctx) (h : Sparse.wf ({} : Ctx) s.ctxs = true) :
    (s.setCtx k x).ctx k = x := Sparse.read_write_self k x h

/-- Every other unit reads as before. -/
theorem State.setCtx_ctx_other {k k' : Nat} (x : Ctx) (h : k' ≠ k) :
    (s.setCtx k x).ctx k' = s.ctx k' := Sparse.read_write_other _ _ x h

/-- The replaced unit reads as its new value, in a canonical table. -/
theorem State.setSq_sq_self (k : Nat) (x : Sq) (h : Sparse.wf ({} : Sq) s.sqs = true) :
    (s.setSq k x).sq k = x := Sparse.read_write_self k x h

/-- Every other unit reads as before. -/
theorem State.setSq_sq_other {k k' : Nat} (x : Sq) (h : k' ≠ k) :
    (s.setSq k x).sq k' = s.sq k' := Sparse.read_write_other _ _ x h

/-- The replaced unit reads as its new value, in a canonical table. -/
theorem State.setCq_cq_self (k : Nat) (x : Cq) (h : Sparse.wf ({} : Cq) s.cqs = true) :
    (s.setCq k x).cq k = x := Sparse.read_write_self k x h

/-- Every other unit reads as before. -/
theorem State.setCq_cq_other {k k' : Nat} (x : Cq) (h : k' ≠ k) :
    (s.setCq k x).cq k' = s.cq k' := Sparse.read_write_other _ _ x h

/-- The replaced unit reads as its new value, in a canonical table. -/
theorem State.setWindow_window_self (k : Nat) (x : Window) (h : Sparse.wf ({} : Window) s.windows = true) :
    (s.setWindow k x).window k = x := Sparse.read_write_self k x h

/-- Every other unit reads as before. -/
theorem State.setWindow_window_other {k k' : Nat} (x : Window) (h : k' ≠ k) :
    (s.setWindow k x).window k' = s.window k' := Sparse.read_write_other _ _ x h

/-- The replaced unit reads as its new value, in a canonical table. -/
theorem State.setStack_stack_self (k : Nat) (x : Stack) (h : Sparse.wf ({} : Stack) s.pool.stack = true) :
    (s.setStack k x).stack k = x := Sparse.read_write_self k x h

/-- Every other unit reads as before. -/
theorem State.setStack_stack_other {k k' : Nat} (x : Stack) (h : k' ≠ k) :
    (s.setStack k x).stack k' = s.stack k' := Sparse.read_write_other _ _ x h

/-- The replaced unit reads as its new value, in a canonical table. -/
theorem State.setQuad_quad_self (k : Nat) (x : Quad) (h : Sparse.wf ({} : Quad) s.net.quad = true) :
    (s.setQuad k x).quad k = x := Sparse.read_write_self k x h

/-- Every other unit reads as before. -/
theorem State.setQuad_quad_other {k k' : Nat} (x : Quad) (h : k' ≠ k) :
    (s.setQuad k x).quad k' = s.quad k' := Sparse.read_write_other _ _ x h

/-- The replaced unit reads as its new value, in a canonical table. -/
theorem State.setPeer_peer_self (k : Nat) (x : Peer) (h : Sparse.wf ({} : Peer) s.net.peers = true) :
    (s.setPeer k x).peer k = x := Sparse.read_write_self k x h

/-- Every other unit reads as before. -/
theorem State.setPeer_peer_other {k k' : Nat} (x : Peer) (h : k' ≠ k) :
    (s.setPeer k x).peer k' = s.peer k' := Sparse.read_write_other _ _ x h

/-- The replaced unit reads as its new value, in a canonical table. -/
theorem State.setNicTx_nicTx_self (k : Nat) (x : NicRing) (h : Sparse.wf ({} : NicRing) s.net.nicTx = true) :
    (s.setNicTx k x).nicTx k = x := Sparse.read_write_self k x h

/-- Every other unit reads as before. -/
theorem State.setNicTx_nicTx_other {k k' : Nat} (x : NicRing) (h : k' ≠ k) :
    (s.setNicTx k x).nicTx k' = s.nicTx k' := Sparse.read_write_other _ _ x h

/-- The replaced unit reads as its new value, in a canonical table. -/
theorem State.setNicRx_nicRx_self (k : Nat) (x : NicRing) (h : Sparse.wf ({} : NicRing) s.net.nicRx = true) :
    (s.setNicRx k x).nicRx k = x := Sparse.read_write_self k x h

/-- Every other unit reads as before. -/
theorem State.setNicRx_nicRx_other {k k' : Nat} (x : NicRing) (h : k' ≠ k) :
    (s.setNicRx k x).nicRx k' = s.nicRx k' := Sparse.read_write_other _ _ x h

end Sys2Proof.Machine
end

