-- ==== Sys2Proof/Laws/Step.lean ====
section
/-! SUPPORT. What the operations can do that nearly every meaning passes through: the test that the module runs, records in
the negative, interrupts, error records, and the completion of a queue command. Each frame lemma names the fields that may
change. -/

namespace Sys2Proof.Machine

/-- On an empty queue the idle tick is the step. -/
theorem step_of_empty {s : State} (h : s.pending = []) : step s = .next (idleTick s) := by
  unfold step
  rw [h]

/-! ### The test that the module runs -/

theorem whenLive_of_live {s : State} (f : State → State) (h : s.live = true) : whenLive f s = f s := by
  simp [whenLive, h]

theorem whenLive_of_stopped {s : State} (f : State → State) (h : s.live = false) : whenLive f s = s := by
  simp [whenLive, h]

/-- What the operation keeps, the test keeps. -/
theorem whenLive_keeps {P : State → Prop} {s : State} {f : State → State} (hs : P s) (hf : P (f s)) : P (whenLive f s) := by
  unfold whenLive
  split
  · exact hf
  · exact hs

@[simp] theorem State.waiting_stalled (s : State) (b : Bool) : (s.waiting b).eng.stalled = b := rfl

theorem State.waiting_self {s : State} {b : Bool} (h : s.eng.stalled = b) : s.waiting b = s := by
  subst h
  rfl

/-- A command whose accesses need not wait is its operation; one of which some access must wait changes nothing (LOG 144). -/
theorem orWait_of_done {s : State} (f : State → State) (hs : s.eng.stalled = false) (h : (f s).eng.stalled = false) :
    orWait f s = f s := by
  simp [orWait, State.waiting_self hs, h, hs, State.waiting_self h]

theorem orWait_of_stalled {s : State} (f : State → State) (h : (f (s.waiting false)).eng.stalled = true) : orWait f s = s := by
  simp [orWait, h]

theorem whenServed_of_live {s : State} (f : State → State) (h : s.live = true) : whenServed f s = orWait f s :=
  whenLive_of_live _ h

/-- What the operation keeps, a wait keeps. -/
theorem orWait_keeps {P : State → Prop} {s : State} {f : State → State} (hs : P s)
    (hf : P ((f (s.waiting false)).waiting s.eng.stalled)) : P (orWait f s) := by
  unfold orWait
  dsimp only
  split
  · exact hs
  · exact hf

/-- The mark of a waiting access does not outlast its command. -/
@[simp] theorem orWait_mark (f : State → State) (s : State) : (orWait f s).eng.stalled = s.eng.stalled := by
  unfold orWait
  dsimp only
  split <;> rfl

/-! ### Frames -/

/-- A record in the negative changes the hub's or a die's record buffer alone. -/
theorem trace_frame (x cls data : Nat) (s : State) :
    trace x cls data s = { s with hub := (trace x cls data s).hub, dies := (trace x cls data s).dies } := by
  unfold trace
  split
  · split <;> rfl
  · rfl

/-- Freezing the negative changes the control complex alone. -/
theorem negFreezeNow_frame (s : State) : negFreezeNow s = { s with ctl := (negFreezeNow s).ctl } := by
  unfold negFreezeNow
  split <;> rfl

/-- An MSI-X message leaves the module or waits in the PBA. -/
theorem sendMsix_frame (f : FuncId) (v : Nat) (s : State) :
    sendMsix f v s = { s with pcie := (sendMsix f v s).pcie, out := (sendMsix f v s).out } := by
  unfold sendMsix
  split
  · split
    · rfl
    · dsimp only
      split <;> rfl
  · rfl

/-- The identity set in an interrupt file changes the interrupt files alone. -/
theorem imsicSet_frame (k ident : Nat) (s : State) : imsicSet k ident s = { s with cores := (imsicSet k ident s).cores } := by
  unfold imsicSet
  split <;> rfl

/-- The two states differ at most where error records, the negative and interrupts stand. -/
def LogOnly (s t : State) : Prop :=
  t = { s with ras := t.ras, hub := t.hub, dies := t.dies, ctl := t.ctl, pcie := t.pcie, out := t.out, cores := t.cores }

theorem LogOnly.refl (s : State) : LogOnly s s := rfl

theorem LogOnly.trans {s t u : State} (h : LogOnly s t) (h' : LogOnly t u) : LogOnly s u := by
  unfold LogOnly at h h' ⊢
  rw [h] at h'
  exact h'

/-- A choice between a state and what is only logged after it. -/
theorem LogOnly.ite {s : State} {f : State → State} (b : Prop) [Decidable b] (h : ∀ u, LogOnly u (f u)) :
    LogOnly s (if b then f s else s) := by
  split
  · exact h s
  · exact .refl s

theorem trace_logOnly (x cls data : Nat) (s : State) : LogOnly s (trace x cls data s) := by
  have h := trace_frame x cls data s
  unfold LogOnly
  rw [h]

theorem negFreezeNow_logOnly (s : State) : LogOnly s (negFreezeNow s) := by
  have h := negFreezeNow_frame s
  unfold LogOnly
  rw [h]

theorem sendMsix_logOnly (f : FuncId) (v : Nat) (s : State) : LogOnly s (sendMsix f v s) := by
  have h := sendMsix_frame f v s
  unfold LogOnly
  rw [h]

theorem sendErrvec_logOnly (c : Nat) (s : State) : LogOnly s (sendErrvec c s) := by
  unfold sendErrvec
  split
  · exact .refl s
  · exact sendMsix_logOnly _ _ s

theorem imsicSet_logOnly (k ident : Nat) (s : State) : LogOnly s (imsicSet k ident s) := by
  have h := imsicSet_frame k ident s
  unfold LogOnly
  rw [h]

theorem rasRoute_logOnly (cls : Nat) (s : State) : LogOnly s (rasRoute cls s) := by
  unfold rasRoute
  have h : LogOnly s (if (Sparse.read {} s.ras.route cls).pf1en then
      sendMsix 33 (Sparse.read {} s.ras.route cls).pf1vec.toNat
        (if (Sparse.read {} s.ras.route cls).pf0en then sendMsix 0 (Sparse.read {} s.ras.route cls).pf0vec.toNat s else s)
      else (if (Sparse.read {} s.ras.route cls).pf0en then sendMsix 0 (Sparse.read {} s.ras.route cls).pf0vec.toNat s else s)) :=
    .trans (.ite _ (sendMsix_logOnly _ _)) (.ite _ (sendMsix_logOnly _ _))
  dsimp only
  split
  · exact h.trans (imsicSet_logOnly _ _ _)
  · exact h

/-- A new error record changes the log, the negative, and what its routes send. -/
theorem newRas_logOnly (r : RasNew) (s : State) : LogOnly s (newRas r s) := by
  unfold newRas
  dsimp only
  have route (u : State) (h : LogOnly s u) : LogOnly s (rasRoute r.cls.code
      (if negTrigger r.cls (trace 0 2 (s.ras.wrptr.toNat + 2 ^ 32 * r.code) u) = true
        then negFreezeNow (trace 0 2 (s.ras.wrptr.toNat + 2 ^ 32 * r.code) u)
        else trace 0 2 (s.ras.wrptr.toNat + 2 ^ 32 * r.code) u)) :=
    .trans (.trans (.trans h (trace_logOnly _ _ _ _)) (.ite _ negFreezeNow_logOnly)) (rasRoute_logOnly _ _)
  have base (x : Ras) : LogOnly s { s with ras := x } := rfl
  split
  · split
    · exact .trans (route _ (base _)) (sendErrvec_logOnly _ _)
    · exact route _ (base _)
  · exact route _ (base _)

theorem noteRas_logOnly (r : RasNew) (s : State) : LogOnly s (noteRas r s) := by
  unfold noteRas
  split
  · rfl
  · exact newRas_logOnly r s

/-- So does an error record, new or counted, with the one of an interrupt that finds no file. -/
theorem logRas_logOnly (r : RasNew) (s : State) : LogOnly s (logRas r s) := by
  unfold logRas
  split
  · rfl
  · split
    · exact (newRas_logOnly r s).trans (noteRas_logOnly _ _)
    · exact newRas_logOnly r s

theorem logReg_logOnly (off : Nat) (r : Requester) (s : State) : LogOnly s (logReg off r s) := logRas_logOnly _ s

/-- An interrupt source's write sets an identity, or is only logged. -/
theorem sendImsic_logOnly (file : BitVec 36) (ident : Nat) (s : State) : LogOnly s (sendImsic file ident s) := by
  unfold sendImsic
  split
  · exact imsicSet_logOnly _ _ s
  · exact logReg_logOnly _ _ s

/-! ### Errors in a tile's memories -/

/-- The tile table and the arrays' cell faults aside, an error in a tile's memories is only logged. -/
theorem meetFlaw_frame (t : Nat) (f : Flaw) (s : State) :
    LogOnly { s with tiles := (meetFlaw t f s).tiles, worn := (meetFlaw t f s).worn } (meetFlaw t f s) := by
  have logged (r : RasNew) (u : State) (h : LogOnly { s with tiles := u.tiles, worn := u.worn } u) :
      LogOnly { s with tiles := (logRas r u).tiles, worn := (logRas r u).worn } (logRas r u) := by
    have l := logRas_logOnly r u
    have ht : (logRas r u).tiles = u.tiles ∧ (logRas r u).worn = u.worn := by
      unfold LogOnly at l
      rw [l]
      exact ⟨rfl, rfl⟩
    rw [ht.1, ht.2]
    exact h.trans l
  have base (x : Sparse Tile) : LogOnly { s with tiles := x } { s with tiles := x } := .refl _
  cases f with
  | spad word bad =>
    simp only [meetFlaw, spadFlaw]
    split
    · exact logged _ _ (base _)
    · exact logged _ _ (base _)
  | reg g l r bad =>
    simp only [meetFlaw, regFlaw]
    split
    · exact base _
    · split
      · exact base _
      · exact logged _ _ (base _)
  | merge granule word bad =>
    simp only [meetFlaw, mergeFlaw]
    split
    · split
      · exact base _
      · exact logged _ _ (base _)
    · exact base _
  | l1 i =>
    simp only [meetFlaw, l1Flaw]
    split
    · exact logged _ _ (base _)
    · exact base _
  | icache w =>
    simp only [meetFlaw, icacheFlaw]
    split
    · split
      · exact logged _ _ (base _)
      · exact base _
    · exact base _
  | cell a => rfl

/-! ### Queue commands -/

/-- The completion of a queue command changes its queue, the completion queue, and the negative. -/
theorem completeCmd_frame (q uid : Nat) (st : Status) (detail result : Nat) (s : State) :
    completeCmd q uid st detail result s = { s with
      sqs := (completeCmd q uid st detail result s).sqs, cqs := (completeCmd q uid st detail result s).cqs
      hub := (completeCmd q uid st detail result s).hub, dies := (completeCmd q uid st detail result s).dies } := by
  have hq (n : Nat) (e : Entry) (u : State) : queueEntry n e u =
      { u with sqs := (queueEntry n e u).sqs, cqs := (queueEntry n e u).cqs } := by
    unfold queueEntry
    split
    · dsimp only
      split <;> rfl
    · rfl
  unfold completeCmd
  split
  · rfl
  · dsimp only
    split
    · rw [trace_frame]
      rfl
    · rw [hq, trace_frame]
      rfl

end Sys2Proof.Machine
end

