-- ==== Sys2Proof/WellFormed.lean ====
section
/-! DEFINITION. When a command's operands name something that exists: byte counts and addresses inside what
the rules allow for that command. Every meaning is total and does not rest on these checks. -/

namespace Sys2Proof

/-- An issue set is not empty and holds 64 lanes at most (R131, R132). -/
def Issue.wf (i : Issue) : Bool := i.lanes != 0

/-- The host's stores lie in host memory, 16 TiB of bus address (R192). -/
def hostBytesWf (hw : List HostByte) : Bool := hw.all (fun e => decide (e.1 < 2 ^ 44))

/-- The TYPE values that R316 lists. -/
def frameTypes : List Nat := [0x01, 0x02, 0x03, 0x04, 0x08, 0x09, 0x0A, 0x0B, 0x10]

/-- A received frame of a row: its payload is at most 4,096 bytes (R325), its TYPE is the row's or one that R316 does not list. -/
def Frame.wf (t : Nat) (f : Frame) : Bool :=
  decide (f.payload.length ≤ 4096) && (f.typ.toNat == t || !frameTypes.contains f.typ.toNat)

/-- A request at a near cache lies in one 256 B line of the 47-bit physical address space (R204, R192). -/
def PoolAccess.wf (x : PoolAccess) : Bool :=
  decide (1 ≤ x.len) && decide (x.pa % 256 + x.len ≤ 256) && decide (x.pa < 2 ^ 47) &&
  (!x.write || x.data.length == x.len)

/-- A word atomic is aligned to its width (R207). -/
def atomWf (pa : Nat) (wide : Bool) : Bool := pa % (if wide then 8 else 4) == 0

/-- A core's store stays inside a 64 B line (R242). -/
def lineStoreWf (pa : Nat) (data : List Byte) : Bool :=
  decide (1 ≤ data.length) && decide (pa % 64 + data.length ≤ 64)

/-- Well-formedness of a command. -/
def Instr.wf : Instr → Bool
  | .nop i | .iadd i | .isub i | .imul i | .imulh i | .imad i | .imin i | .imax i | .andR i | .orR i
  | .xorR i | .shl i | .shr i | .popc i | .clz i | .brev i | .idiv i | .irem i | .sel i | .mov i
  | .isetp i | .iaddI i | .isubI i | .imulI i | .iminI i | .imaxI i | .andI i | .orI i | .xorI i
  | .shlI i | .shrI i | .movI i | .isetpI i | .plog i | .p2g i | .g2p i | .sreg i | .fadd i | .fsub i
  | .fmul i | .ffma i | .fmin i | .fmax i | .fabs i | .fneg i | .fdiv i | .fsqrt i | .frcp i | .frsqrt i
  | .fexp2 i | .flog2 i | .fsin i | .fcos i | .fsetp i | .cvt i | .ld i | .st i | .atomAdd i
  | .atomSwap i | .atomCas i | .atomMin i | .atomMax i | .bra i | .brx i | .call i | .exitT i | .trap i
  | .barG i | .barT i | .sig i | .sigI i | .waits i | .fence i | .mxRun i | .vxRun i | .dxCopy i
  | .dxFill i | .dxRed i => i.wf
  | .l1Fill _ _ hw | .dxOpComplete _ _ hw _ | .sqFetch _ hw | .sqFetchRetry _ hw | .launch _ _ hw
  | .collective _ _ hw | .checkpointSave _ _ hw | .checkpointRestore _ _ hw
  | .collectiveTimeout _ hw | .hubDmaComplete _ _ hw => hostBytesWf hw
  | .collectiveWaitSatisfied _ x => hostBytesWf x.hw
  | .nearCacheAccess x => x.wf
  | .wordAtomic _ pa _ wide _ _ => atomWf pa wide
  | .coreAmo _ pa _ wide _ _ => atomWf pa wide
  | .bulkReduction _ pa _ _ data _ _ => decide (1 ≤ data.length) && decide (pa % 256 + data.length ≤ 256)
  | .coreLoadMiss _ _ hw _ => hostBytesWf hw
  | .coreStoreMiss _ pa data hw => lineStoreWf pa data && hostBytesWf hw
  | .lrSc _ pa sc => match sc with
    | none => true
    | some d => (d.length == 4 || d.length == 8) && pa % d.length == 0
  | .hostBar2Read _ len => decide (1 ≤ len) && decide (len ≤ 4096)
  | .hostBar2Write _ data => decide (1 ≤ data.length) && decide (data.length ≤ 4096)
  | .writeFrame f => f.wf 0x01
  | .readFrame f => f.wf 0x02
  | .signalFrame f => f.wf 0x03
  | .reduceWrite f => f.wf 0x04
  | .readResp f => f.wf 0x08
  | .ack f => f.wf 0x09
  | .nak f => f.wf 0x0A
  | .abortFrame f => f.wf 0x0B
  | .report f | .grant f | .ret f => f.wf 0x10
  | .nicReceive _ p => decide (p.bytes.length ≤ 16384)
  | .ckptHeldWrite _ _ data => decide (1 ≤ data.length)
  | .registerWrite _ _ bytes _ => bytes == 4 || bytes == 8
  | .thermalTick ds ss => ds.length == 5 && ss.stackTemps.length == 12
  | .attest nonce => nonce.length == 32
  | .kernelStart _ | .groupAdmit _ | .mergeBufferDrain _ _ _ | .convWatchdogExpiry _ _
  | .kernelAbortRemoteStop _ | .kernelEnd _ | .waitsTimeout _ _ _ | .waitRecordRegister _ _ _
  | .mxOpStart _ _ | .mxOpComplete _ _ _ | .vxBasicOp _ _ | .vxCvt _ _ | .vxQnt _ _ | .vxTranscendental _ _
  | .updateAdamw _ _ | .updateSgdm _ _ | .vxOpComplete _ | .dxOpStart _ | .agitatorRead _ _
  | .phyRecalibration _ _ | .refreshManagement _ _ _ | .pcFailure _ _ | .hbmEccClr _ _ _
  | .tgenStart _ _ _ _ | .tgenStop _ _ _ _ | .tgenDone _ _ _ _ _ | .p1500Go _ _ _ | .p1500Done _ _
  | .applyBand _ _ _ _ | .bandChangeComplete _ | .pageWalkComplete _ | .windowCtlWrite _ _ _
  | .windowDrainEnd _ | .engineReadSnoop _ | .engineWriteSnoop _ | .l2Eviction _ _ _ | .l3Eviction _ _
  | .cboClean _ _ | .cboFlush _ _ | .cboInval _ _ | .cboZero _ _ | .imsicWrite _ _ _ _ | .snpInv _
  | .snpData _ | .snpCur _ | .hostLineEviction _ _ | .signalApply _ | .waitRegister _ | .syncCtxSig _ _ _
  | .armSlotWrite _ _ _ _ | .syncObjValWrite _ _ _ | .sqTail _ _ _ | .cqHead _ _ _ | .commandStart _
  | .cqPost _ | .sqEnable _ _ _ | .cqEnable _ _ _ | .queueDrainEnd _ _ | .contextDrainEnd _
  | .functionDrainEnd _ | .nopCmd _ _ | .fenceCmd _ _ | .signalCmd _ _ | .waitCmd _ _ | .waitTimeout _ _
  | .copyCmd _ _ | .writeInline _ _ | .fillCmd _ _ | .reduceCopy _ _ | .mapRange _ _ | .unmapRange _ _
  | .tlbInvalidate _ _ | .query _ _ | .featureNegotiate _ _ | .powerBudget _ _ | .contextCreate _ _
  | .contextDestroy _ _ | .contextPreempt _ _ | .preemptTimeout _ _ | .contextResume _ _ | .claim _ _
  | .detach _ _ | .adopt _ _ _ | .drvAcceptWrite _ _ _ | .perst _ | .hotReset | .linkDown
  | .surpriseRemoval | .linkRecovery | .hostUnreachable _ _ | .functionLevelReset _ | .vfEnableClear
  | .quadTraining _ _ | .quadTrainRetry _ _ | .nlReplay _ _ _ | .linkControlFrame _ _
  | .requestTimeout _ _ | .xportClr _ _ | .addrtabInv _ _ | .nicTxTail _ _ _ | .abortMemoryExpiry _
  | .ckptBlockReadComplete _ | .capControlTick _ _ | .lcapWatchdog | .pwrCapWrite _ _
  | .droopReport _ _ | .shutterRelease _ | .clkArrTarget _ _ | .arrPatternSwitch _ | .holdRelease _
  | .vddArrRampDone _ | .thermalStepDown _ | .thermalStepUp _ | .thermalTrip _ | .tripClear _ _ _
  | .clrpeak _ _ _ | .clkSrvDiv _ _ _ | .vddSrvRampDone _ | .powerEpoch _ | .grantLeaseExpiry _ _
  | .donationExpiry _ | .joinHoldEnd | .groupLeaveComplete | .supplyValid _ _ | .supplyLost _
  | .vinMainDip _ _ | .pllLossOfLock _ | .refclkLoss | .refclkReturn | .coldReset _ | .warm _ _ _
  | .dieReset _ _ _ | .tileGo _ _ | .ctxGo _ _ | .heartbeat _ | .heartbeatTimeout _
  | .exposureDetermined _ | .hubLoss _ | .d2dModuleFailure _ _ _ | .d2dLoopbackTest _ _ | .satcntClr _ _ _
  | .pmcClear _ _ _ | .pmcFreeze _ _ _ | .serviceWatchdogExpiry _ | .nextFlashStore | .telemetryTick _
  | .negativeFreeze _ _ | .getIdentity | .getCert | .fwWrite _ _ | .fwCommit | .fwSvnCommit | .lcNonce
  | .lcRequest _ _ _ | .getTelemetry _ _ _ | .getLog _ _ | .traceRead _ _ | .mctpControl _ | .pldmRequest _
  | .prsntN _ | .modRstN _ _ _ | .jtagInstruction _ | .configurationRequest _ _ | .linkUp _
  | .dieFabricError _ | .pllRelock _ => true

end Sys2Proof
end

