-- ==== Sys2Proof/Tests/Slice0.lean ====
section
/-! SUPPORT. Tests: ill-formed commands that the checks refuse, examples of the manual, and for each statement states and
operands that meet its hypotheses. -/

set_option Elab.async false

namespace Sys2Proof.Tests

open Sys2Proof.Machine

/-! ### Ill-formed commands -/

/-- A frame of the given length. -/
def frameOf (n : Nat) : Frame :=
  ⟨0, true, 0, 1, false, 0, false, false, 5, 3, 0, 0, 0, 1, 0, 0, 0, List.replicate n 0, 0⟩

theorem test_wf_refuses :
    Instr.wf (.iadd ⟨0, 0, 0, true, [], [], false⟩) = false ∧ Instr.wf (.l1Fill 0 0 [(2 ^ 44, 0)]) = false ∧
    Instr.wf (.nearCacheAccess ⟨.hub, .allocating, 255, false, 2, [], .none, .none⟩) = false ∧
    Instr.wf (.nearCacheAccess ⟨.hub, .allocating, 0, true, 2, [0], .none, .none⟩) = false ∧
    Instr.wf (.wordAtomic .hub 4 .add true 0 0) = false ∧ Instr.wf (.coreAmo 0 2 .add false 0 0) = false ∧
    Instr.wf (.bulkReduction .hub 0 .add .fp32 [] false .none) = false ∧ Instr.wf (.coreLoadMiss 0 { pa := 0 } [(2 ^ 44, 0)] .none) = false ∧
    Instr.wf (.coreStoreMiss 0 63 [0, 0] []) = false ∧ Instr.wf (.lrSc 0 4 (some [0, 0, 0, 0, 0, 0, 0, 0])) = false ∧
    Instr.wf (.hostBar2Read 0 0) = false ∧ Instr.wf (.hostBar2Write 0 []) = false ∧
    Instr.wf (.ckptHeldWrite .hub 0 []) = false ∧ Instr.wf (.registerWrite .pf0 0 2 0) = false ∧
    Instr.wf (.thermalTick [] ⟨[], 0, 0, 0⟩) = false ∧ Instr.wf (.attest []) = false := by decide

theorem test_wf_refuses_long_frame : Instr.wf (.ack (frameOf 4097)) = false := by decide +kernel

theorem test_wf_refuses_long_packet :
    Instr.wf (.nicReceive 0 ⟨List.replicate 16385 0⟩) = false := by decide +kernel

/-! ### A tile that runs a kernel -/

/-- A kernel of context 0 on tile 0. -/
def kern : Kernel :=
  { kid := 5, sq := 0, uid := 1, ctx := 0, gen := 0, entry := 0, args := [1, 2, 3, 4, 5, 6, 7, 8], width := 2, nregs := 64, nru := false
    ngroup := 1, tiles := 1, todo := 0, live := 1, abort := none, poison := false, hostLost := false, drops := 0, reruns := 0
    winFault := none, peerLost := none, remote := 0, limit := 16, legacy := false, rnd := 0 }

/-- A thread that holds these registers, and one that is not there yet. -/
def thr (regs : Sparse W32) : Thread := { regs := regs }
def later : Thread := { pc := 8 }

/-- A group of two threads, its run on the tile with the word w in the instruction cache. -/
def grp (a b : Thread) : Group := ⟨0, [a, b]⟩
def runOf (a b : Thread) (w : W64) : Run :=
  { kid := 5, groups := [grp a b], next := 1, exited := 0, stopped := false, startTel := 0, icache := [(0, w)], arrivals := 0 }

/-- The tile 0: a translation of the context that covers HBM, and the L1 line of granule 0. -/
def tileOf (a b : Thread) (w : W64) : Tile :=
  { run := some (runOf a b w), tlb := [⟨0, 0, 2 ^ 34, 0, true, true, true, false⟩]
    l1 := [(0, ⟨0, 0, [9, 8, 7, 6, 5, 4, 3, 2], []⟩)] }

/-- The module with that tile, an ACTIVE context 0 with an object table, and the object 7 cached as object 3 of C0. -/
def stOf (a b : Thread) (w : W64) : State :=
  { State.reset with
    tiles := [(0, tileOf a b w)], kernels := [kern], kidNext := 6
    ctxs := [(0, { state := .active, rootV := true, objV := true, objSize := 4 })]
    dies := [(0, { objs := [⟨0, 7, 3, true, true⟩] })] }

/-- The second thread at a later PC, or beside the first. -/
def st (regs : Sparse W32) (w : W64) : State := stOf (thr regs) later w
def stB (regs : Sparse W32) (w : W64) : State := stOf (thr regs) (thr regs) w

/-- Both threads, and the first alone. -/
def both : Issue := ⟨0, 0, 3, true, [], [], false⟩
def one : Issue := ⟨0, 0, 1, true, [], [], false⟩

/-- Only the lanes below n are in a set of n lanes. -/
theorem lane_lt (n l : Nat) (h : (BitVec.ofNat 64 (2 ^ n - 1)).getLsbD l = true) : l < n := by
  simp only [BitVec.getLsbD_ofNat, Bool.and_eq_true, decide_eq_true_eq] at h
  simpa using h.2

theorem thr_free (regs : Sparse W32) (w : W64) : regsBusy w (thr regs) = false ∧ (thr regs).pmarked (fld w 2 0) = false := by
  simp [regsBusy, thr, Thread.busyIn, Thread.pmarked]

/-- Every word of an opcode that passes the checks of R154 is put forward by both threads. -/
theorem set_both (regs : Sparse W32) (opc : Nat) (w : W64) (ho : wOpc w = opc) (hc : wordOk 64 w = true) :
    IssueSet (stB regs w) both opc (runOf (thr regs) (thr regs) w) kern (grp (thr regs) (thr regs)) 0 w where
  live := rfl
  run := rfl
  going := rfl
  kernel := rfl
  group := rfl
  lanes := by decide
  threads := fun l hl =>
    match l, lane_lt 2 l hl with
    | 0, _ => ⟨thr regs, rfl, rfl, rfl, thr_free regs w⟩
    | 1, _ => ⟨thr regs, rfl, rfl, rfl, thr_free regs w⟩
  inside := by decide
  flaws := rfl
  hit := rfl
  cached := rfl
  opcode := ho
  checked := hc

/-- The first thread is ready where its word is no group-wide instruction (R131). -/
theorem thr_ready (regs : Sparse W32) (b : Thread) (w : W64) (hw : isWide (wOpc w) = false) :
    isReady (runOf (thr regs) b w) [] 0 (thr regs) = true := by
  have h := (thr_free regs w).1
  simp [isReady, runOf, thr, Sparse.find?, hw] at h ⊢
  exact h

/-- Its group has not converged on a group-wide instruction. -/
theorem not_converged (regs : Sparse W32) (b : Thread) (w : W64) (hw : isWide (wOpc w) = false) :
    (grp (thr regs) b).converged (runOf (thr regs) b w) = none := by
  simp [Group.converged, Group.live, grp, runOf, thr, Thread.isExited, Sparse.find?, hw, List.range_succ, List.filter_cons]

/-- R132 chooses the group at PC 0, whether the second thread is ready beside the first or not ready. -/
theorem chosen_both (regs : Sparse W32) (w : W64) (hw : isWide (wOpc w) = false) :
    issueChosen (runOf (thr regs) (thr regs) w) both 0 = true := by
  have h := thr_ready regs (thr regs) w hw
  have hl : readyLanes (runOf (thr regs) (thr regs) w) [] (grp (thr regs) (thr regs)) = [(0, thr regs), (1, thr regs)] := by
    rw [readyLanes, not_converged _ _ _ hw]; simp [grp, Group.lanes, h]
  have hp : choosePc (runOf (thr regs) (thr regs) w) [] (grp (thr regs) (thr regs)) = 0 := by
    rw [choosePc, hl]; rfl
  have hg : (runOf (thr regs) (thr regs) w).groups = [grp (thr regs) (thr regs)] := rfl
  have hr : readyGroups (runOf (thr regs) (thr regs) w) [] = [grp (thr regs) (thr regs)] := by
    simp only [readyGroups, hg, List.filter_cons, hl, List.isEmpty_cons, Bool.not_false, if_true, List.filter_nil]
  have hc : coWaits (runOf (thr regs) (thr regs) w) = false := rfl
  have ho : oldestOf (runOf (thr regs) (thr regs) w) [grp (thr regs) (thr regs)] = some (grp (thr regs) (thr regs)) := rfl
  simp only [issueChosen, both, hr, hc, Bool.false_eq_true, if_false, ho, hp]
  rfl

theorem chosen_one (regs : Sparse W32) (b : Thread) (w : W64) (hw : isWide (wOpc w) = false)
    (hb : isReady (runOf (thr regs) b w) [] 0 b = false) : issueChosen (runOf (thr regs) b w) one 0 = true := by
  have h := thr_ready regs b w hw
  have hl : readyLanes (runOf (thr regs) b w) [] (grp (thr regs) b) = [(0, thr regs)] := by
    rw [readyLanes, not_converged _ _ _ hw]; simp [grp, Group.lanes, h, hb]
  have hp : choosePc (runOf (thr regs) b w) [] (grp (thr regs) b) = 0 := by
    rw [choosePc, hl]; rfl
  have hg : (runOf (thr regs) b w).groups = [grp (thr regs) b] := rfl
  have hr : readyGroups (runOf (thr regs) b w) [] = [grp (thr regs) b] := by
    simp only [readyGroups, hg, List.filter_cons, hl, List.isEmpty_cons, Bool.not_false, if_true, List.filter_nil]
  have hc : coWaits (runOf (thr regs) b w) = false := rfl
  have ho : oldestOf (runOf (thr regs) b w) [grp (thr regs) b] = some (grp (thr regs) b) := rfl
  simp only [issueChosen, one, hr, hc, Bool.false_eq_true, if_false, ho, hp]
  rfl

/-- An issue set of both threads. -/
theorem issuable_both (regs : Sparse W32) (opc : Nat) (w : W64) (ho : wOpc w = opc) (hc : wordOk 64 w = true)
    (hw : isWide opc = false) :
    Issuable (stB regs w) both opc (runOf (thr regs) (thr regs) w) kern (grp (thr regs) (thr regs)) 0 w where
  toIssueSet := set_both regs opc w ho hc
  whole := fun l th hl _ _ _ =>
    match l, hl with
    | 0, _ => rfl
    | 1, _ => rfl
    | n + 2, hl => by simp [grp] at hl
  chosen := chosen_both regs w (ho ▸ hw)

/-- And one of the first thread alone, its guard holding, beside a thread that is not ready at its PC. -/
theorem issuable_beside (regs : Sparse W32) (b : Thread) (opc : Nat) (w : W64) (ho : wOpc w = opc) (hc : wordOk 64 w = true)
    (hg : guardOf w (thr regs) = true) (hw : isWide opc = false) (hb : isReady (runOf (thr regs) b w) [] 0 b = false)
    (hn : b.st ≠ .runnable ∨ b.pc ≠ 0) :
    IssuableOne (stOf (thr regs) b w) one opc (runOf (thr regs) b w) kern (grp (thr regs) b) 0 w 0 (thr regs) where
  set := {
    live := rfl, run := rfl, going := rfl, kernel := rfl, group := rfl, lanes := by decide
    threads := fun l hl =>
      match l, lane_lt 1 l hl with
      | 0, _ => ⟨thr regs, rfl, rfl, rfl, thr_free regs w⟩
    inside := by decide, flaws := rfl, hit := rfl, cached := rfl, opcode := ho, checked := hc
    whole := fun l th hl hs hp _ =>
      match l, hl with
      | 0, _ => rfl
      | 1, hl => by
        have e : b = th := by simpa [grp] using hl
        subst e
        rcases hn with h | h <;> contradiction
      | n + 2, hl => by simp [grp] at hl
    chosen := chosen_one regs b w (ho ▸ hw) hb }
  alone := fun j => ⟨fun h => Nat.lt_one_iff.mp (lane_lt 1 j h), fun h => h ▸ rfl⟩
  thread := rfl
  guard := hg
  room := by decide

theorem issuable_one (regs : Sparse W32) (opc : Nat) (w : W64) (ho : wOpc w = opc) (hc : wordOk 64 w = true)
    (hg : guardOf w (thr regs) = true) (hw : isWide opc = false) :
    IssuableOne (st regs w) one opc (runOf (thr regs) later w) kern (grp (thr regs) later) 0 w 0 (thr regs) :=
  issuable_beside regs later opc w ho hc hg hw rfl (.inr (by decide))

/-- A word with guard p7: opcode, DST, SA, SB, SC. -/
def word (opc dst sa sb sc : Nat) (rest : Nat := 0) : W64 :=
  BitVec.ofNat 64 (7 + 2 ^ 4 * opc + 2 ^ 12 * dst + 2 ^ 18 * sa + 2 ^ 24 * sb + 2 ^ 30 * sc + rest)


/-- A word for each instruction that only writes registers, and for those that jump, end and wait. -/
def words : List (Nat × W64) :=
  [(0x00, word 0x00 0 0 0 0), (0x01, word 0x01 2 4 6 0), (0x02, word 0x02 2 4 6 0), (0x03, word 0x03 2 4 6 0), (0x04, word 0x04 2 4 6 0),
   (0x05, word 0x05 2 4 6 8), (0x06, word 0x06 2 4 6 0), (0x07, word 0x07 2 4 6 0), (0x08, word 0x08 2 4 6 0), (0x09, word 0x09 2 4 6 0),
   (0x0A, word 0x0A 2 4 6 0), (0x0B, word 0x0B 2 4 6 0), (0x0C, word 0x0C 2 4 6 0), (0x0D, word 0x0D 2 4 0 0), (0x0E, word 0x0E 2 4 0 0),
   (0x0F, word 0x0F 2 4 0 0), (0x10, word 0x10 2 4 6 0), (0x11, word 0x11 2 4 6 0), (0x12, word 0x12 2 4 6 0), (0x13, word 0x13 2 4 0 0),
   (0x14, word 0x14 2 4 6 0), (0x15, word 0x15 2 4 6 0), (0x16, word 0x16 2 0 0 0), (0x17, word 0x17 0 4 0 0)] ++
  [(0x21, word 0x21 2 4 0 0), (0x22, word 0x22 2 4 0 0), (0x23, word 0x23 2 4 0 0), (0x26, word 0x26 2 4 0 0), (0x27, word 0x27 2 4 0 0),
   (0x28, word 0x28 2 4 0 0), (0x29, word 0x29 2 4 0 0), (0x2A, word 0x2A 2 4 0 0), (0x2B, word 0x2B 2 4 0 0), (0x2C, word 0x2C 2 4 0 0),
   (0x33, word 0x33 2 0 0 0), (0x34, word 0x34 2 4 0 0), (0x38, word 0x38 2 0 0 0)] ++
  [(0x40, word 0x40 2 4 6 0), (0x41, word 0x41 2 4 6 0), (0x42, word 0x42 2 4 6 0), (0x43, word 0x43 2 4 6 8), (0x44, word 0x44 2 4 6 0),
   (0x45, word 0x45 2 4 6 0), (0x46, word 0x46 2 4 0 0), (0x47, word 0x47 2 4 0 0), (0x48, word 0x48 2 4 6 0 (0xE * 2 ^ 36)),
   (0x49, word 0x49 2 4 0 0 (0xE * 2 ^ 36)), (0x4A, word 0x4A 2 4 0 0 (0xE * 2 ^ 36)), (0x4B, word 0x4B 2 4 0 0 (0xE * 2 ^ 36)),
   (0x4C, word 0x4C 2 4 0 0 (0xE * 2 ^ 36)), (0x4D, word 0x4D 2 4 0 0 (0xE * 2 ^ 36)), (0x4E, word 0x4E 2 4 0 0 (0xE * 2 ^ 36)),
   (0x4F, word 0x4F 2 4 0 0 (0xE * 2 ^ 36)), (0x50, word 0x50 2 4 6 0), (0x51, word 0x51 2 4 0 0)] ++
  [(0xA0, word 0xA0 0 0 0 0), (0xA0, word 0xA0 0 0 0 0 (4 * 2 ^ 32)), (0xA0, word 0xA0 0 0 0 0 ((2 ^ 25 - 8) * 2 ^ 32)),
   (0xA0, word 0xA0 0 0 0 0 (2 ^ 25 * 2 ^ 32)), (0xA1, word 0xA1 0 0 6 0), (0xA2, word 0xA2 2 0 0 0), (0xA3, word 0xA3 0 0 0 0),
   (0xA4, word 0xA4 0 0 0 0), (0xA5, word 0xA5 0 0 0 0), (0xA6, word 0xA6 0 0 0 0)]

theorem words_ok : ∀ e ∈ words, wOpc e.2 = e.1 ∧ wordOk 64 e.2 = true ∧ guardOf e.2 (thr []) = true ∧ isWide e.1 = false := by
  decide +kernel

/-- The premise of IntegerArithmetic, IntegerProductsAndQuotients, Predicates, SpecialRegisters, FloatArithmetic, FloatFunctions and
Branches is met for each of their instructions. -/
theorem witness_issuable (e) (h : e ∈ words) :
    Issuable (stB [] e.2) both e.1 (runOf (thr []) (thr []) e.2) kern (grp (thr []) (thr [])) 0 e.2 :=
  issuable_both [] e.1 e.2 (words_ok e h).1 (words_ok e h).2.1 (words_ok e h).2.2.2

/-- And for one thread alone. -/
theorem witness_issuable_one (e) (h : e ∈ words) :
    IssuableOne (st [] e.2) one e.1 (runOf (thr []) later e.2) kern (grp (thr []) later) 0 e.2 0 (thr []) :=
  issuable_one [] e.1 e.2 (words_ok e h).1 (words_ok e h).2.1 (words_ok e h).2.2.1 (words_ok e h).2.2.2

/-- DivisionCorners: the operands of each clause. -/
theorem witness_division_corners :
    let c : Thread := thr [(4, 0x80000000), (6, 0xFFFFFFFF)]
    (thr []).reg (wSb (word 0x10 2 4 6 0)) = 0 ∧ (thr []).reg (wSb (word 0x11 2 4 6 0)) = 0 ∧
    wU (word 0x10 2 4 6 0) = false ∧ wU (word 0x11 2 4 6 0) = false ∧ c.reg 4 = 0x80000000 ∧ c.reg 6 = 0xFFFFFFFF ∧
    Issuable (stB c.regs (word 0x10 2 4 6 0)) both 0x10 (runOf c c (word 0x10 2 4 6 0)) kern (grp c c) 0 (word 0x10 2 4 6 0) :=
  ⟨rfl, rfl, rfl, rfl, rfl, rfl, issuable_both _ _ _ rfl (by decide +kernel) rfl⟩

/-- What a step answers. -/
def after (o : Host.Outcome State Fault Refusal) : State :=
  match o with
  | .next s => s
  | _ => State.reset

/-- The register r of thread l after a command. -/
def regAfter (i : Instr) (s : State) (l r : Nat) : Option W32 := ((after (exec i s)).thread? 0 0 l).map (fun th => th.reg r)

/-- R163: IDIV of −2³¹ by −1 and by 0, IREM. -/
theorem test_idiv :
    regAfter (.idiv both) (stB [(4, 0x80000000), (6, 0xFFFFFFFF)] (word 0x10 2 4 6 0)) 1 2 = some 0x80000000 ∧
    regAfter (.idiv both) (stB [(4, 9)] (word 0x10 2 4 6 0)) 0 2 = some 0xFFFFFFFF ∧
    regAfter (.irem both) (stB [(4, 9)] (word 0x11 2 4 6 0)) 0 2 = some 9 ∧
    regAfter (.irem both) (stB [(4, 0xFFFFFFF9), (6, 2)] (word 0x11 2 4 6 0)) 0 2 = some 0xFFFFFFFF := by decide +kernel

/-- An addition wraps, and a subtraction takes its source as destination. -/
theorem test_iadd :
    regAfter (.iadd both) (stB [(4, 0xFFFFFFFF), (6, 2)] (word 0x01 2 4 6 0)) 0 2 = some 1 ∧
    regAfter (.isub both) (stB [(4, 1), (6, 2)] (word 0x02 4 4 6 0)) 0 4 = some 0xFFFFFFFF := by decide +kernel

/-- 1.5 × 2 + 0.25 = 3.25 in fp32. -/
theorem test_ffma :
    regAfter (.ffma one) (st [(4, 0x3FC00000), (6, 0x40000000), (8, 0x3E800000)] (word 0x43 2 4 6 8 (0xE * 2 ^ 36))) 0 2 =
      some 0x40500000 := by decide +kernel

/-! ### Loads, stores and atomics -/

/-- A load of 4 bytes: space G 0, S 1, K 2. -/
def ldw (space : Nat) : W64 := word 0x80 2 4 0 0 (space * 2 ^ 30 + 2 * 2 ^ 32)
def stw (space : Nat) : W64 := word 0x81 0 4 6 0 (space * 2 ^ 30 + 2 * 2 ^ 32)

theorem ld_st_ok : ∀ sp, sp < 3 → wOpc (ldw sp) = 0x80 ∧ wordOk 64 (ldw sp) = true ∧ guardOf (ldw sp) (thr []) = true ∧
    (sp < 2 → wOpc (stw sp) = 0x81 ∧ wordOk 64 (stw sp) = true ∧ guardOf (stw sp) (thr []) = true) := by decide +kernel

/-- The merging buffer of tile 0 filled. -/
def withMerge (e : List MergeEntry) (s : State) : State := { s with tiles := [(0, { s.tile 0 with merge := e })] }

/-- One buffered word at PA 0x1000. -/
def buffered : MergeEntry := ⟨0x10, false, [(0, 1), (1, 2), (2, 3), (3, 4)], []⟩

/-- The state after the translation of the load, store or atomic at 0x1000. -/
def xl (k : XKind) (opc : Nat) (s : State) : XRes × State := translate (.tile 0) 0 0x1000 k (k != .load) (counted one opc s)

/-- The premise carries over to a state that differs elsewhere. -/
theorem issuable_like (s' : State) (h : IssuableOne s i opc r k g pc w l th) (hl : s'.live = true)
    (hr : (s'.tile i.tile.val).run = some r) (hk : s'.kernel? r.kid = some k)
    (ht : s'.thread? i.tile.val i.group l = some th) : IssuableOne s' i opc r k g pc w l th :=
  ⟨⟨{ h.set with live := hl, run := hr, kernel := hk }, h.alone, ht, h.guard⟩, h.room⟩

theorem guard_regs (regs : Sparse W32) (w : W64) (h : guardOf w (thr []) = true) : guardOf w (thr regs) = true := h

/-- The first thread alone, with any registers and merging buffer. -/
theorem issuable_merge (regs : Sparse W32) (m : List MergeEntry) (opc : Nat) (w : W64) (ho : wOpc w = opc) (hc : wordOk 64 w = true)
    (hg : guardOf w (thr []) = true) (hw : isWide opc = false) :
    IssuableOne (withMerge m (st regs w)) one opc (runOf (thr regs) later w) kern (grp (thr regs) later) 0 w 0 (thr regs) :=
  issuable_like (withMerge m (st regs w)) (issuable_one regs opc w ho hc (guard_regs regs w hg) hw) rfl rfl rfl rfl

/-- Loads, Stores: the thread with its word. -/
theorem witness_load (regs : Sparse W32) (m : List MergeEntry) (sp : Nat) (h : sp < 3) :
    IssuableOne (withMerge m (st regs (ldw sp))) one 0x80 (runOf (thr regs) later (ldw sp)) kern (grp (thr regs) later) 0 (ldw sp) 0
      (thr regs) :=
  issuable_merge regs m 0x80 (ldw sp) (ld_st_ok sp h).1 (ld_st_ok sp h).2.1 (ld_st_ok sp h).2.2.1 rfl

theorem witness_store (regs : Sparse W32) (m : List MergeEntry) (sp : Nat) (h : sp < 2) :
    IssuableOne (withMerge m (st regs (stw sp))) one 0x81 (runOf (thr regs) later (stw sp)) kern (grp (thr regs) later) 0 (stw sp) 0
      (thr regs) :=
  have hs := (ld_st_ok sp (Nat.lt_succ_of_lt h)).2.2.2 h
  issuable_merge regs m 0x81 (stw sp) hs.1 hs.2.1 hs.2.2 rfl

/-- Loads: a misaligned address; the argument block; the last word of the scratchpad; memory that misses, memory in the L1, memory in
the merging buffer. -/
theorem witness_loads :
    ((st [(4, 1)] (ldw 0)).tile 0).fills = [] ∧ addrMarked (ldw 0) (thr [(4, 1)]) = false ∧ memAddr (ldw 0) (thr [(4, 1)]) % 4 ≠ 0 ∧
    memAddr (ldw 2) (thr []) % 4 = 0 ∧ wSpace (ldw 2) = 2 ∧
    memAddr (ldw 1) (thr [(4, 0x7FFFFC)]) = 2 ^ 23 - 4 ∧ wSpace (ldw 1) = 1 ∧ (st [(4, 0x7FFFFC)] (ldw 1)).fenced 0 = false ∧
    wSpace (ldw 0) = 0 ∧ (xl .load 0x80 (st [(4, 0x1000)] (ldw 0))).1 = .ok 0x1000 false ∧
    (xl .load 0x80 (st [(4, 0x1000)] (ldw 0))).2.eng.stalled = false ∧
    (xl .load 0x80 (st [(4, 0x1000)] (ldw 0))).2.thread? 0 0 0 = some (thr [(4, 0x1000)]) ∧
    ((xl .load 0x80 (st [(4, 0x1000)] (ldw 0))).2.tile 0).fills = [] ∧ paKind 0x1000 = .hbm 0 ∧
    ((xl .load 0x80 (st [(4, 0x1000)] (ldw 0))).2.tile 0).l1Find 8 = none ∧
    ((xl .load 0x80 (st [(4, 0x1000)] (ldw 0))).2.tile 0).mergeFind 0x10 = none ∧
    ((xl .load 0x80 (st [] (ldw 0))).2.tile 0).l1Find 0 ≠ none ∧
    ((xl .load 0x80 (withMerge [buffered] (st [(4, 0x1000)] (ldw 0)))).2.tile 0).mergeFind 0x10 = some (0, buffered) := by decide +kernel

/-- The data of a load that the merging buffer answers. -/
def given : Forward → Option (List PB)
  | .all d => some d
  | _ => none

/-- What the buffered load of the last clause finds. -/
theorem witness_load_forwards :
    given (((xl .load 0x80 (withMerge [buffered] (st [(4, 0x1000)] (ldw 0)))).2.tile 0).forward 0x1000 4) =
      some [(1, false), (2, false), (3, false), (4, false)] := by decide +kernel

/-- Stores: misaligned; the last word of the scratchpad; memory with the granule's entry in the buffer, and with room for one. -/
theorem witness_stores :
    memAddr (stw 0) (thr [(4, 1)]) % 4 ≠ 0 ∧ addrMarked (stw 0) (thr [(4, 1)]) = false ∧
    memAddr (stw 1) (thr [(4, 0x7FFFFC)]) = 2 ^ 23 - 4 ∧ wSpace (stw 1) = 1 ∧ (st [(4, 0x7FFFFC)] (stw 1)).fenced 0 = false ∧
    (xl .store 0x81 (st [(4, 0x1000)] (stw 0))).1 = .ok 0x1000 false ∧
    (xl .store 0x81 (st [(4, 0x1000)] (stw 0))).2.eng.stalled = false ∧
    (xl .store 0x81 (st [(4, 0x1000)] (stw 0))).2.thread? 0 0 0 = some (thr [(4, 0x1000)]) ∧
    ((xl .store 0x81 (st [(4, 0x1000)] (stw 0))).2.tile 0).merge.length < 8 ∧
    ((xl .store 0x81 (withMerge [buffered] (st [(4, 0x1000)] (stw 0)))).2.tile 0).mergeFind 0x10 ≠ none := by decide +kernel

/-- A word of each atomic on the scratchpad (space 1) and on memory (space 0). -/
def atoms : List (Nat × W64) :=
  [0x82, 0x83, 0x84, 0x85, 0x86].flatMap (fun o => [(o, word o 2 4 6 0 (2 ^ 30 + 2 * 2 ^ 32)), (o, word o 2 4 6 0 (2 * 2 ^ 32))])

theorem atoms_ok : ∀ e ∈ atoms, wOpc e.2 = e.1 ∧ wordOk 64 e.2 = true ∧ guardOf e.2 (thr [(4, 0x1000)]) = true ∧
    srcMarked e.2 (thr [(4, 0x1000)]) = false ∧ wFs e.2 = 0 ∧ memAddr e.2 (thr [(4, 0x1000)]) = 0x1000 ∧
    wSize e.2 = 2 ∧ (wSpace e.2 = 1 ∨ wSpace e.2 = 0) ∧ isWide e.1 = false := by decide +kernel

theorem witness_atomics (e) (h : e ∈ atoms) :
    let c := thr [(4, 0x1000)]
    IssuableOne (st c.regs e.2) one e.1 (runOf c later e.2) kern (grp c later) 0 e.2 0 c :=
  have a := atoms_ok e h
  issuable_one _ e.1 e.2 a.1 a.2.1 a.2.2.1 a.2.2.2.2.2.2.2.2

/-- AtomicsOnScratchpad, AtomicsOnMemory: the rest of their premises. -/
theorem witness_atomics_rest :
    let x := xl .atomic 0x82 (st [(4, 0x1000)] (ldw 0))
    let a := memAtom (threadPort x.2 0 false) .add false 0x1000 0 5 x.2
    ((st [(4, 0x1000)] (ldw 0)).tile 0).spoison = [] ∧ x.1 = .ok 0x1000 false ∧ x.2.runKernel 0 = some kern ∧
    (x.2.tile 0).mergeFind 0x10 = none ∧ a.1.met.dies = 0 ∧ a.2.eng.stalled = false ∧
    a.2.thread? 0 0 0 = some (thr [(4, 0x1000)]) := by decide +kernel

/-- FENCE of tile and of die scope, with a buffered store to drain. -/
def fenceW (scope : Nat) : W64 := word 0xB3 0 0 0 0 (scope * 2 ^ 32)
def fst : State := (st [] (fenceW 3)).modTile 0 (fun x => { x with merge := [buffered] })

/-- The words of the FENCEs pass the checks, and both scopes are met. -/
theorem fences_ok : ∀ sc, sc < 6 → 1 ≤ sc → wOpc (fenceW sc) = 0xB3 ∧ wordOk 64 (fenceW sc) = true ∧ guardOf (fenceW sc) (thr []) = true ∧
    fld (fenceW sc) 34 32 = sc := by decide +kernel

theorem witness_fence (sc : Nat) (h : sc < 6) (h1 : 1 ≤ sc) :
    IssuableOne (withMerge [buffered] (st [] (fenceW sc))) one 0xB3 (runOf (thr []) later (fenceW sc)) kern (grp (thr []) later) 0
      (fenceW sc) 0 (thr []) :=
  have a := fences_ok sc h h1
  issuable_merge [] [buffered] 0xB3 (fenceW sc) a.1 a.2.1 a.2.2.1 rfl

theorem witness_fences :
    let d := drainAll 0 (counted one 0xB3 fst)
    let e := drainEntry 0 buffered (fst.modTile 0 (fun x => { x with merge := [] }))
    d.1.dies = 0 ∧ d.2.eng.stalled = false ∧ d.2.thread? 0 0 0 = some (thr []) ∧ d.2.issues 0 = true ∧
    (fst.tile 0).merge[0]? = some buffered ∧ e.1.dies = 0 ∧ e.2.eng.stalled = false := by
  decide +kernel

/-- A load of 4 bytes at 0x1000 that waits for its line. -/
def waitingLoad : LoadFill := ⟨0, 0, 2, 2, false, false, 0x1000, false, true⟩
def fillSt : State := (st [] (ldw 0)).modTile 0 (fun x => { x with fills := [waitingLoad] })
def fillRead : ReadRes × State := memRead (threadPort fillSt 0 false) 0x1000 512 fillSt

theorem witness_fill :
    fillSt.runKernel 0 = some kern ∧ (fillSt.tile 0).merge = [] ∧ fillRead.1.met.dies = 0 ∧ fillRead.1.met.unreach = false ∧
    fillRead.2.eng.stalled = false ∧ fillRead.2.thread? 0 0 0 = some (thr []) ∧ (fillRead.2.tile 0).fills = [waitingLoad] ∧
    (fillRead.2.tile 0).merge = [] := by
  decide +kernel



/-! ### Control flow, barriers and group-wide instructions -/

/-- Branches: targets at both ends of the range, beyond it, and misaligned (words holds each); BRX to a good and a bad target. -/
theorem witness_branches :
    (∀ x : Nat, x = 0 ∨ x = 2 ^ 25 - 8 → (word 0xA0 0 0 0 0 (x * 2 ^ 32), 0xA0) ∈ words.map (fun e => (e.2, e.1))) ∧
    (BitVec.extractLsb' 32 32 (word 0xA0 0 0 0 0 ((2 ^ 25 - 8) * 2 ^ 32))).toInt = 2 ^ 25 - 8 ∧
    (BitVec.extractLsb' 32 32 (word 0xA0 0 0 0 0 (2 ^ 25 * 2 ^ 32))).toInt = 2 ^ 25 ∧
    (BitVec.extractLsb' 32 32 (word 0xA0 0 0 0 0 (4 * 2 ^ 32))).toInt % 8 = 4 ∧
    both.lanes.getLsbD 0 = true ∧ guardOf (word 0xA0 0 0 0 0 (4 * 2 ^ 32)) (thr []) = true ∧
    (thr []).marked (wSb (word 0xA1 0 0 6 0)) = false ∧ ((thr []).reg (wSb (word 0xA1 0 0 6 0))).toNat = 0 ∧
    ((thr [(6, 0x1FFFFF8)]).reg (wSb (word 0xA1 0 0 6 0))).toNat = 2 ^ 25 - 8 ∧
    ((thr [(6, 0x2000000)]).reg (wSb (word 0xA1 0 0 6 0))).toNat = 2 ^ 25 := by
  refine ⟨fun x h => ?_, by decide +kernel⟩
  rcases h with h | h <;> subst h <;> decide +kernel

/-- A BRA forward by 16. -/
theorem test_bra :
    ((after (exec (.bra both) (stB [] (word 0xA0 0 0 0 0 (16 * 2 ^ 32))))).thread? 0 0 1).map (·.pc) = some 16 := by decide +kernel

/-- Threads at a BAR.G, at a group-wide instruction, and ended. -/
def atG : Thread := { st := .barG, since := 1 }
def atWide : Thread := { st := .atGroupWide, since := 1 }
def atT : Thread := { st := .barT 0, since := 1 }
def ended : Thread := { st := .exited }

/-- BarriersAndExit: the other thread is runnable (EXIT, BAR.G first clause), at the BAR.G or ended (EXIT and BAR.G as the last), or at the
BAR.T (EXIT and BAR.T as the last). -/
theorem witness_barrier_issues : ∀ b ∈ [later, atG, ended, atT], ∀ opc ∈ [0xA3, 0xA5, 0xA6],
    IssuableOne (stOf (thr []) b (word opc 0 0 0 0)) one opc (runOf (thr []) b (word opc 0 0 0 0)) kern (grp (thr []) b) 0
      (word opc 0 0 0 0) 0 (thr []) := by
  intro b hb opc ho
  have h : ∀ opc ∈ [0xA3, 0xA5, 0xA6], wOpc (word opc 0 0 0 0) = opc ∧ wordOk 64 (word opc 0 0 0 0) = true ∧
      guardOf (word opc 0 0 0 0) (thr []) = true ∧ isWide opc = false := by decide +kernel
  have a := h opc ho
  have n : ∀ b ∈ [later, atG, ended, atT], b.st ≠ .runnable ∨ b.pc ≠ 0 := by decide
  have q : isReady (runOf (thr []) b (word opc 0 0 0 0)) [] 0 b = false := by
    simp only [List.mem_cons, List.not_mem_nil, or_false] at hb
    rcases hb with rfl | rfl | rfl | rfl <;> rfl
  exact issuable_beside [] b opc _ a.1 a.2.1 a.2.2.1 a.2.2.2 q (n b hb)

theorem witness_barriers :
    ((grp (thr []) later).threads[1]? = some later ∧ later.st = .runnable ∧ later.st ≠ .barG) ∧
    (∀ h ∈ (runOf (thr []) later 0).groups, ∀ o ∈ h.threads, ∀ b, o.st ≠ .barT b) ∧
    (∀ o ∈ [atG, ended], (o.st = .exited ∨ o.st = .barG) ∧ o.pc + 8 < pcEnd) ∧
    ((st [] (word 0xA5 0 0 0 0)).tile 0).fills = [] ∧
    ((runOf (thr []) later 0).groups.map (fun h => (h.threads.filter (fun o => o.st == .barT 0)).length)).sum + 1 <
      kern.ngroup * kern.width - (runOf (thr []) later 0).exited ∧
    (let r := runOf (thr []) atT 0
     let there := (r.groups.map (fun h => (h.threads.filter (fun o => o.st == .barT 0)).length)).sum
     there + 1 = kern.ngroup * kern.width - r.exited ∧ there = kern.ngroup * kern.width - (r.exited + 1) ∧
     (∀ h ∈ r.groups, ∀ o ∈ h.threads, o.st ≠ .barG ∧ (o.st = .runnable ∨ o.st = .barT 0) ∧ o.pc + 8 < pcEnd) ∧ (r.groups.map (·.num)).Nodup) ∧
    ((runOf (thr []) later 0).groups.map (·.num)).Nodup := by decide +kernel

/-- TrapAbortsKernel: a thread at each kind of wait while the other runs. -/
theorem witness_watchdog : ∀ o ∈ [atG, atWide, atT],
    let s := stOf o later 0
    s.live = true ∧ (s.tile 0).run = some (runOf o later 0) ∧ (runOf o later 0).stopped = false ∧ s.runKernel 0 = some kern ∧
    s.group? 0 0 = some (grp o later) ∧ oldestWait (Group.live (grp o later)) = some o ∧
    (∀ e ∈ Group.live (grp o later), sameWait o e.2 = false → pausesWatch s 0 0 e = false) := by
  decide +kernel

/-- A 32-bit word of a descriptor. -/
def u32 (v : Nat) : List Byte := toBytes v 4

/-- Zero bytes. -/
def zs (n : Nat) : List Byte := List.replicate n 0

/-- A product of two fp32 elements into one (M = N = K = 1, bfloat16 inputs). -/
def mxDesc : List Byte :=
  u32 0 ++ u32 1 ++ u32 0 ++ u32 0x8000 ++ zs 8 ++ u32 0x8000 ++ u32 0x8000 ++ zs 8 ++ u32 0x10000 ++ u32 0x8000 ++ u32 0x40000 ++ u32 0 ++
  u32 0x50000 ++ zs 68

/-- An fp32 FMA of two elements. -/
def vxDesc : List Byte :=
  let stream := fun b => u32 b ++ zs 4 ++ u32 (1 + 0xE * 4) ++ zs 4
  u32 (3 + 256 + 0xE * 2 ^ 22) ++ zs 4 ++ stream 0 ++ stream 64 ++ stream 128 ++ u32 256 ++ zs 4 ++ u32 0xE ++ zs 4 ++ zs 56

/-- Four bytes inside the scratchpad, copied; the same as a fill, and a reduction to memory. -/
def dxDesc : List Byte :=
  u32 0 ++ zs 4 ++ u32 0x1000 ++ zs 4 ++ u32 3 ++ u32 4 ++ zs 40
def redDesc : List Byte :=
  u32 0 ++ zs 4 ++ u32 0x1000 ++ zs 4 ++ u32 1 ++ u32 256 ++ zs 40

/-- The state with a descriptor at the end of the scratchpad, its address in register 4 of both threads. -/
def wideSt (opc : Nat) (d : List Byte) : State :=
  (stB [(4, BitVec.ofNat 32 (2 ^ 23 - d.length))] (word opc 0 4 0 0)).modTile 0 (fun x => { x with
    scratch := Mem.setBytes [] (2 ^ 23 - d.length) d })

/-- Whether an issue queues the operation. -/
def queues : Issued → Bool
  | .queued _ => true
  | _ => false

/-- Whether it finds the queue full. -/
def isFull : Issued → Bool
  | .full => true
  | _ => false

def wides : List (Nat × List Byte) := [(0xC0, mxDesc), (0xC1, vxDesc), (0xC2, dxDesc), (0xC3, dxDesc), (0xC4, redDesc)]

/-- Both threads are put forward at each. -/
theorem witness_wide_set (e : Nat × List Byte) (h : wOpc (word e.1 0 4 0 0) = e.1 ∧ wordOk 64 (word e.1 0 4 0 0) = true) :
    let c := thr [(4, BitVec.ofNat 32 (2 ^ 23 - e.2.length))]
    IssueSet (wideSt e.1 e.2) both e.1 (runOf c c (word e.1 0 4 0 0)) kern (grp c c) 0 (word e.1 0 4 0 0) :=
  { set_both _ e.1 (word e.1 0 4 0 0) h.1 h.2 with live := rfl, run := rfl, kernel := rfl }

/-- GroupWideInstructions: each descriptor lies unpoisoned at its address, and its operation is queued. -/
theorem witness_wide : ∀ e ∈ wides,
    wOpc (word e.1 0 4 0 0) = e.1 ∧ wordOk 64 (word e.1 0 4 0 0) = true ∧
    ((wideSt e.1 e.2).tile 0).fills = [] ∧
    (let off := 2 ^ 23 - e.2.length
     ((thr [(4, BitVec.ofNat 32 off)]).reg 4).toNat = off ∧ (thr [(4, BitVec.ofNat 32 off)]).marked 4 = false ∧
     guardOf (word e.1 0 4 0 0) (thr [(4, BitVec.ofNat 32 off)]) = true ∧ e.2.length = (if e.1 < 0xC2 then 128 else 64) ∧
     off % e.2.length = 0 ∧ off + e.2.length ≤ spadEnd ∧
     anyPoison (spadBytes ((wideSt e.1 e.2).tile 0) off e.2.length) = false ∧
     queues (issueBy e.1 kern (plain (spadBytes ((wideSt e.1 e.2).tile 0) off e.2.length)) (wideSt e.1 e.2).glb.drvAccept
       (mxArray ((wideSt e.1 e.2).tile 0) (plain (spadBytes ((wideSt e.1 e.2).tile 0) off e.2.length))) ((wideSt e.1 e.2).tile 0)) = true) := by
  decide +kernel

/-- And where its queue is full it is not: each engine's queue four or eight times its operation. -/
theorem witness_wide_full : ∀ e ∈ wides,
    let x := (wideSt e.1 e.2).tile 0
    let m := mxFields 5 0 mxDesc
    let y := { x with arr0 := { queue := List.replicate 4 m }, arr1 := { queue := List.replicate 4 m }
                      vx := List.replicate 4 (vxFields 5 vxDesc), dx := List.replicate 8 (dxFields 5 .copy dxDesc) }
    isFull (issueBy e.1 kern e.2 3 (mxArray y e.2) y) = true := by
  decide +kernel

/-- Its lanes are the live threads of the group. -/
theorem witness_wide_lanes (regs : Sparse W32) (l : Nat) (o : Thread) (h : (grp (thr regs) (thr regs)).threads[l]? = some o) :
    (both.lanes.getLsbD l = true ↔ o.st ≠ .exited) := by
  match l, h with
  | 0, h => simp only [grp, List.getElem?_cons_zero, Option.some.injEq] at h; subst h; simp [both, thr]
  | 1, h => simp only [grp, List.getElem?_cons_zero, List.getElem?_cons_succ, Option.some.injEq] at h; subst h; simp [both, thr]
  | n + 2, h => simp [grp] at h

/-- Words of SIG, SIG.I and WAITS. -/
def sync : List (Nat × W64) := [(0xB0, word 0xB0 0 4 6 0), (0xB1, word 0xB1 0 4 0 0 (5 * 2 ^ 32)), (0xB2, word 0xB2 2 4 6 0)]

/-- The object 7 of context 0, and a target. -/
def regs7 (target : Nat) : Sparse W32 := [(4, 7), (6, BitVec.ofNat 32 target)]

theorem sync_ok : ∀ e ∈ sync, ∀ v ∈ [1, 0, 0xFFFFFFFF], wOpc e.2 = e.1 ∧ wordOk 64 e.2 = true ∧ guardOf e.2 (thr []) = true ∧
    srcMarked e.2 (thr (regs7 v)) = false ∧ (thr (regs7 v)).pair (wSa e.2) = 7 ∧ isWide e.1 = false := by
  decide +kernel

theorem witness_sync (e) (h : e ∈ sync) (v) (hv : v ∈ [1, 0, 0xFFFFFFFF]) :
    let c := thr (regs7 v)
    IssuableOne (st c.regs e.2) one e.1 (runOf c later e.2) kern (grp c later) 0 e.2 0 c :=
  have a := sync_ok e h v hv
  issuable_one (regs7 v) e.1 e.2 a.1 a.2.1 (guard_regs (regs7 v) e.2 a.2.2.1) a.2.2.2.2.2

/-- The state of a WAITS of the first thread, its issue counted. -/
def waitSt (target : Nat) : State := counted one 0xB2 (st (regs7 target) (word 0xB2 2 4 6 0))

/-- A lookup that the cache answers changes nothing. -/
theorem lookup_cached (s : State) (x c vid : Nat) (op : OOp) (e : ObjEntry)
    (hv : (s.ctx c).objV = true) (hn : ¬ 2 ^ (s.ctx c).objSize.toNat ≤ vid)
    (hf : (objCache x s).find? (fun e => e.ctx.val == c && e.vid == vid) = some e)
    (hl : s.paLost ((s.ctx c).objBase.toNat * 4096 + 4 * vid) = false) (hc : objCheck s op e.phys e.sg e.wt = .ok e.phys) :
    objLookup x c vid op s = (.ok e.phys, s) := by
  simp [objLookup, objLookupRaw, hv, hn, hf, hl, hc]

theorem counted_fenced (opc : Nat) (regs : Sparse W32) (w : W64) (d : Nat) : (counted one opc (st regs w)).fenced d = false :=
  match d with
  | 0 => rfl
  | _ + 1 => rfl

theorem not_lost (s : State) (pa : Nat) (h : ∀ d, s.fenced d = false) : s.paLost pa = false := by
  unfold State.paLost State.paDie
  cases paKind pa <;> simp [h]

/-- SignalsAndWaitsOfThreads: the lookup gives the object 3. -/
theorem witness_lookup (w : W64) (opc : Nat) :
    let s := counted one opc (st (regs7 1) w)
    drainAll 0 s = ({}, s) ∧ objLookup 1 0 7 .signal s = (.ok 3, s) ∧ s.thread? 0 0 0 = some (thr (regs7 1)) ∧ s.eng.stalled = false :=
  ⟨rfl, lookup_cached _ 1 0 7 .signal ⟨0, 7, 3, true, true⟩ rfl (by show ¬ 2 ^ 4 ≤ 7; decide) rfl (not_lost _ _ (counted_fenced opc _ w)) rfl, rfl, rfl⟩

theorem witness_lookup_wait (v : Nat) : objLookup 1 0 7 .wait (waitSt v) = (.ok 3, waitSt v) ∧ (waitSt v).eng.stalled = false :=
  ⟨lookup_cached _ 1 0 7 .wait ⟨0, 7, 3, true, true⟩ rfl (by show ¬ 2 ^ 4 ≤ 7; decide) rfl (not_lost _ _ (counted_fenced _ _ _)) rfl, rfl⟩

/-- The rest of its premises, with the value 0 of the object below the target, equal to it and past it. -/
theorem witness_signals : ∀ v ∈ [1, 0, 0xFFFFFFFF],
    (waitSt v).thread? 0 0 0 = some (thr (regs7 v)) ∧ (waitSt v).issues 0 = true ∧ (waitSt v).fenced 0 = false ∧
    ((waitSt v).tile 0).waits = [] ∧ ((waitSt v).obj 3 - (thr (regs7 v)).reg 6).toInt = -(BitVec.ofNat 32 v).toInt := by decide +kernel

/-- A thread in a WAITS with a limit. -/
def inWaits : Thread := { st := .waiting ⟨7, 1, 2, 0, true, true⟩ }

theorem witness_waits_timeout :
    (stOf inWaits later 0).live = true ∧ (stOf inWaits later 0).thread? 0 0 0 = some inWaits := by decide +kernel


/-! ### Kernels on a tile, and the engines -/

/-- Tile 0 changed. -/
def tileSt (f : Tile → Tile) (s : State) : State := { s with tiles := [(0, f (s.tile 0))] }

/-- KernelLifeOnATile: a kernel of one tile that waits; one of two groups, its second not yet admitted; one that has aborted elsewhere; one
that has ended here and still runs on tile 1. -/
def startSt (last : Option Nat) : State :=
  tileSt (fun x => { x with run := none, waiting := [5], lastCtx := last, scratch := [(3, 7)] }) (st [] 0)
def twoGroups : Kernel := { kern with ngroup := 2 }
def endRun : Run := { runOf (thr []) later 0 with groups := [] }
def endKern : Kernel := { kern with live := 3, tiles := 3 }
def endSt : State := { tileSt (fun x => { x with run := some endRun }) (st [] 0) with kernels := [endKern] }

theorem witness_kernel_life :
    (∀ last ∈ [none, some 0, some 1],
      ((startSt last).tile 0).run = none ∧ ((startSt last).tile 0).waiting = [5] ∧ (startSt last).kernel? 5 = some kern ∧
      (startSt last).glb.tileBusy = none ∧ (startSt last).fenced 0 = false ∧ (startSt last).withdrawn 0 = false ∧
      ((startSt last).ctx 0).preempt = none ∧ ((startSt last).ctx 0).state = .active ∧ ((startSt last).tile 0).lastCtx = last) ∧
    (let s := { st [] 0 with kernels := [twoGroups] }
     s.kernel? 5 = some twoGroups ∧ (s.tile 0).run = some (runOf (thr []) later 0) ∧ (runOf (thr []) later 0).stopped = false ∧ (runOf (thr []) later 0).next < twoGroups.ngroup ∧
     (runOf (thr []) later 0).groups.length < min (2048 / twoGroups.width) (98304 / (twoGroups.nregs * twoGroups.width))) ∧
    (let s := { st [] 0 with kernels := [{ kern with abort := some (.aborted, 1) }] }
     (s.tile 0).run = some (runOf (thr []) later 0) ∧ (s.kernel? 5).isSome = true ∧ (s.tile 0).merge = []) ∧
    (endSt.tile 0).run = some endRun ∧ endSt.kernel? 5 = some endKern ∧ endRun.groups = [] ∧ endKern.ngroup ≤ endRun.next ∧
    (endSt.tile 0).enginesIdle = true ∧ (endSt.tile 0).fills = [] ∧ (endSt.tile 0).merge = [] ∧ endSt.glb.tileBusy = none ∧
    endSt.glb.ctxBusy = none ∧ (∀ e ∈ endSt.ctxs, e.2.preempt = none) ∧ Sparse.wf ({} : Tile) endSt.tiles = true ∧
    (endKern.live &&& ~~~ (BitVec.ofNat 96 (2 ^ 0))) ≠ 0 := by decide +kernel

/-- The matrix operation of the descriptor. -/
def mxOp : MxOp := mxFields 5 0 mxDesc

/-- MatrixOperations: it waits, and it executes on either array. -/
theorem witness_matrix :
    (let s := tileSt (fun x => { x with arr0 := { queue := [mxOp] }, arr1 := { queue := [mxOp] } }) (st [] 0)
     (s.tile 0).arr0.queue = [mxOp] ∧ (s.tile 0).arr0.exec = [] ∧ (s.tile 0).arr1.queue = [mxOp] ∧ (s.tile 0).arr1.exec = [] ∧
     interlockOpen (s.tile 0) mxOp = true ∧ (s.tile 0).run = some (runOf (thr []) later 0) ∧ (runOf (thr []) later 0).wide = []) ∧
    (let s := tileSt (fun x => { x with arr0 := { exec := [mxOp] } }) (st [] 0)
     (s.tile 0).run = some (runOf (thr []) later 0) ∧ s.kernel? 5 = some kern ∧
     (s.tile 0).arr0.exec = [mxOp] ∧
     firstBad (mxRunChecks { s.tile 0 with arr0 := { exec := [] } } mxOp) = none ∧ mxOp.sig = none ∧ mxOp.c.list = false ∧
     firstBad (mxRunChecks { s.tile 0 with arr0 := { exec := [] } } { mxOp with c := mxOp.a }) = some badRange ∧ mxOp.a.list = false ∧ (s.tile 0).merge = []) := by
  decide +kernel

/-- A vector operation of an opcode: two elements, fp32 sources and destination. -/
def vxOp (op : Nat) : VxOp := { vxFields 5 vxDesc with op := op }
def vxSt (o : VxOp) : State := tileSt (fun x => { x with vx := [o] }) (st [] 0)

/-- VectorOperations: of every row an opcode at each end of its range; the rounding is to nearest. -/
theorem witness_vector : ∀ op ∈ [0x00, 0x11, 0x12, 0x13, 0x20, 0x33],
    let o := vxOp op
    ((vxSt o).tile 0).vx = [o] ∧ o.op = op ∧ o.ran = false ∧ o.dstFmt = 0x0E ∧ o.dstTag = none ∧ o.red = 0 ∧ 0 < o.count ∧
    rndOf kern o.rnd = 0 ∧ (op ≤ 0x11 ∨ op = 0x12 ∨ op = 0x13 ∨ vxSlow op = true) := by decide +kernel

/-- R122: an update of one element with its parameter block at 0x3000 and GATE as given. -/
def updOp (op : Nat) : VxOp :=
  { vxOp op with count := 1, src0 := .stream 0 0, src1 := .stream 64 0xE, src2 := .stream 128 0xE, dstBase := 256, dstFmt := 0
                 updW := 0x1000, param := 0x3000, rnd16 := 0 }
def updSt (op gate : Nat) : State :=
  tileSt (fun x => { x with vx := [updOp op], scratch := Mem.setBytes [] (0x3000 + 36) (u32 gate) }) (st [] 0)

theorem witness_update : ∀ op ∈ [0x40, 0x41], ∀ gate ∈ [0, 1],
    let o := updOp op
    let s := updSt op gate
    (s.tile 0).vx = [o] ∧ o.op = op ∧ o.ran = false ∧ o.w8Present = false ∧ o.dstTag = none ∧ rndOf kern o.rnd = 0 ∧
    rndOf kern o.rnd16 = 0 ∧ fmtBits o.dstFmt % 8 = 0 ∧ 0 < o.count ∧ o.src1 = .stream 64 0xE ∧ o.src2 = .stream 128 0xE ∧ anyPoison (spadBytes (s.tile 0) o.param 64) = false ∧
    leAt (plain (spadBytes (s.tile 0) o.param 64)) 36 4 = gate ∧ isMx o.dstFmt = false := by
  decide +kernel

/-- A vector operation that has run, a DMA copy, and a fill to the end of the scratchpad. -/
def ranOp : VxOp := { vxOp 0 with ran := true, recs := [], tags := [], hits := [] }
def dxOp : DxOp := dxFields 5 .copy dxDesc
def fillOp : DxOp := { dxFields 5 .fill dxDesc with running := true, dst := BitVec.ofNat 64 (2 ^ 23 - 4) }
/-- A thread in a WAITS that has no wait record yet. -/
def unrecorded : Thread := { st := .waiting ⟨7, 1, 2, 0, true, false⟩ }

theorem witness_engines :
    (((vxSt ranOp).tile 0).vx = [ranOp] ∧ ranOp.ran = true ∧ ranOp.recs = [] ∧ ranOp.tags = [] ∧ ranOp.hits = [] ∧ ranOp.sig = none) ∧
    (let busy := { dxOp with running := true }
     let s := tileSt (fun x => { x with dx := [busy, busy, busy] ++ dxOp :: [] }) (st [] 0)
     (s.tile 0).dx = [busy, busy, busy] ++ dxOp :: [] ∧ dxOp.running = false ∧ ([busy, busy, busy] ++ []).countP (fun (e : DxOp) => e.running) < 4 ∧
     ∀ e ∈ [busy, busy, busy], DxOp.running e = true) ∧
    (let s := tileSt (fun x => { x with dx := [fillOp] }) (st [] 0)
     (s.tile 0).dx = [fillOp] ∧ fillOp.running = true ∧ fillOp.kind = .fill ∧ fillOp.dsp = true ∧ fillOp.count1 = 1 ∧ fillOp.count2 = 1 ∧
     fillOp.sig = none ∧ (s.tile 0).merge = [] ∧ 0 < fillOp.len0 ∧ fillOp.dst.toNat + fillOp.len0 ≤ 2 ^ 23 ∧ s.fenced 0 = false ∧
     Memory.wf (s.tile 0).scratch = true) ∧
    (let s := stOf unrecorded later 0
     s.thread? 0 0 0 = some unrecorded ∧ s.fenced (7 / 4096) = false ∧ (s.tile 0).waits.contains ⟨7, 1⟩ = false ∧
     (s.tile 0).waits.length < 64 ∧ (s.obj 7 - 1).toInt < 0) := by decide +kernel

/-- A state that meets the hypotheses of ErrorsInTileMemories: a thread, an entry of the merging buffer, an L1 line and a cached word. -/
theorem witness_errors :
    fst.live = true ∧ (Instr.mxOpComplete 0 1 [.l1 0]).meets = some (0, [.l1 0]) ∧
    (Instr.fence { one with flaws := [.icache 7] }).meets = some (0, [.icache 7]) ∧ (63 : BitVec 6) ≠ 0 ∧
    fst.thread? 0 0 0 = some (thr []) ∧ (fst.tile 0).merge[0]? = some buffered ∧ Sparse.wf {} fst.tiles = true ∧
    Sparse.sortedFrom none (fst.tile 0).l1 = true ∧ ((fst.tile 0).run.map (·.kid)) = some 5 ∧
    (fst.thread? 0 0 63).isNone = true := by decide +kernel

/-- R388: the last word of the scratchpad poisoned and recorded (SPAD_UE, DEFERRED); the entry's word poisoned; the word fetched again. -/
theorem test_flaws :
    (let s := meetFlaw 0 (.spad 1048575 true) fst
     (KeySet.has (s.tile 0).spoison 1048575, KeySet.has (s.tile 0).spoison 0,
      (Sparse.read ({} : RasRec) s.ras.log 0).code, (Sparse.read ({} : RasRec) s.ras.log 0).addr) = (true, false, 0x16, 0x7FFFF8)) ∧
    ((((meetFlaw 0 (.merge 0x10 0 true) fst).tile 0).merge.map (fun e => e.poison)) = [[(0, ()), (1, ()), (2, ()), (3, ())]]) ∧
    (((meetFlaw 0 (.icache 7) fst).tile 0).run.map (fun r => r.icache)) = some [] := by decide +kernel

/-! ### Memory pool -/

/-- The conditions of Serves, as a test. -/
def servesB (s : State) (pa : Nat) : Bool :=
  let h := s.home pa
  (match paKind pa with | .hbm _ => true | _ => false) && !paClosed pa && !s.fenced (dieOfStack h.1) && !s.pcFailed h.1 (pcOf h.2) &&
    !s.bandBusy pa && !(s.stack h.1).p1500Busy && s.pool.ruins.isEmpty && !(s.tgen h.1 (pcOf h.2)).running && !isProtected pa s &&
    !restoring pa s && !s.hub.loopback

theorem serves_of (s : State) (pa : Nat) (hd : ∀ d, (s.die d).loopback = false) (h : servesB s pa = true) : Serves s pa := by
  simp only [servesB, Bool.and_eq_true, Bool.not_eq_true'] at h
  obtain ⟨⟨⟨⟨⟨⟨⟨⟨⟨⟨h1, h2⟩, h3⟩, h4⟩, h5⟩, h6⟩, h7⟩, h8⟩, h9⟩, h10⟩, h11⟩ := h
  refine ⟨?_, h2, h3, h4, h5, fun r => ?_, h6, List.isEmpty_iff.mp h7, h8, h9, h10⟩
  · cases hk : paKind pa <;> simp [hk] at h1 ⊢
  · unfold State.cutOff State.parted
    cases requesterDie r <;> simp [hd, h11]

/-- A unit that its home serves after reset, and the last line of it. -/
theorem witness_serves : Serves State.reset 0x1000 ∧ Serves State.reset 0x10FF :=
  ⟨serves_of _ _ (fun _ => rfl) (by decide +kernel), serves_of _ _ (fun _ => rfl) (by decide +kernel)⟩

/-- PoolRequests: a write of a unit's last byte, a read, word atomics and reductions at aligned, unpoisoned addresses. -/
theorem witness_pool :
    (let x : PoolAccess := ⟨.hub, .allocating, 0x10FF, true, 1, [1], .none, .none⟩
     x.pa % 256 + x.data.length ≤ 256 ∧ 0 < x.data.length ∧ x.cls = .allocating) ∧
    (let x : PoolAccess := ⟨.hub, .allocating, 0x1000, false, 1, [], .none, .none⟩
     x.write = false ∧ 0 < x.len) ∧
    0x1000 % 8 = 0 ∧ 0x1000 % 256 = 0 ∧ (List.replicate 256 (0 : Byte)).length = 256 ∧
    KeySet.has State.reset.pool.poison (0x1000 / 32) = false ∧
    ∀ j, j < 8 → KeySet.has State.reset.pool.poison (0x1000 / 32 + j) = false := by
  decide +kernel

/-- StackWorkAndService: the agitator at its first burst and at its last; a life-cycle state that permits tests. -/
def testSt : State := { State.reset with fuses := { State.reset.fuses with lcState := 1 } }
def lastBurst : State := State.reset.setStack 0 { agPos := 2 ^ 30 - 1 }

theorem witness_stacks :
    State.reset.fenced 0 = false ∧ (State.reset.stack 0).agDue = [] ∧ (State.reset.stack 0).agEnable = true ∧
    unitDirty 0 0 State.reset = false ∧ State.reset.pcFailed 0 0 = false ∧ (State.reset.stack 0).agPos + 1 < 2 ^ 30 ∧
    (lastBurst.stack 0).agPos + 1 = 2 ^ 30 ∧ unitDirty 0 (32 * (lastBurst.stack 0).agPos) lastBurst = false ∧
    lastBurst.pcFailed 0 (pcOf (32 * (lastBurst.stack 0).agPos)) = false ∧ (lastBurst.stack 0).agEnable = true := by
  decide +kernel


/-! ### Sets of several threads, the last instruction slot, group-wide issues -/

/-- Both threads, each as it stands. -/
theorem issuable_set (regs : Sparse W32) (opc : Nat) (w : W64) (ho : wOpc w = opc) (hc : wordOk 64 w = true) (hw : isWide opc = false) :
    IssuableSet (stB regs w) both opc (runOf (thr regs) (thr regs) w) kern (grp (thr regs) (thr regs)) 0 w (fun _ => thr regs) where
  set := issuable_both regs opc w ho hc hw
  thread := fun l hl =>
    match l, lane_lt 2 l hl with
    | 0, _ => rfl
    | 1, _ => rfl
  room := by decide

/-- A thread alone as a set. -/
theorem set_of_one (h : IssuableOne s i opc r k g pc w l th) : IssuableSet s i opc r k g pc w (fun _ => th) where
  set := h.set
  thread := fun j hj => (h.alone j).mp hj ▸ h.thread
  room := h.room

/-- Loads, Stores, AtomicsOnScratchpad, SignalsAndWaitsOfThreads: a set of two threads with each word, and the rest of the premises. -/
theorem witness_sets :
    (∀ e ∈ [(0x80, ldw 2), (0x80, ldw 1), (0x81, stw 1), (0x82, word 0x82 2 4 6 0 (2 ^ 30 + 2 * 2 ^ 32))],
      wOpc e.2 = e.1 ∧ wordOk 64 e.2 = true ∧ isWide e.1 = false ∧ guarded both e.2 (fun _ => thr []) = [0, 1] ∧
      addrMarked e.2 (thr []) = false ∧ srcMarked e.2 (thr []) = false ∧ memAddr e.2 (thr []) % 4 = 0 ∧ memAddr e.2 (thr []) + 4 ≤ 2 ^ 23) ∧
    ((stB [] 0).tile 0).fills = [] ∧ ((stB [] 0).tile 0).spoison = [] ∧ ((stB [] 0).tile 0).merge = [] ∧ (stB [] 0).fenced 0 = false ∧
    wFs (word 0x82 2 4 6 0 (2 ^ 30 + 2 * 2 ^ 32)) = 0 ∧
    (∀ e ∈ sync, guarded both e.2 (fun _ => thr (regs7 1)) = [0, 1] ∧ (thr (regs7 1)).pair (wSa e.2) < 2 ^ 20) := by decide +kernel

theorem witness_cached (w : W64) : CachedObj (stB (regs7 1) w) 1 0 7 .signal 3 where
  table := ⟨rfl, by show 7 < 2 ^ 4; decide⟩
  entry := ⟨⟨0, 7, 3, true, true⟩, rfl, rfl, rfl⟩
  whole := fun d => match d with
    | 0 => rfl
    | _ + 1 => rfl

/-- ATOM with FS a fence of die scope, on the scratchpad and on memory. -/
def atomF (space : Nat) : W64 := word 0x82 2 4 6 0 (space * 2 ^ 30 + 2 * 2 ^ 32 + 3 * 2 ^ 37)

theorem atom_fs_ok : ∀ sp ∈ [0, 1], wOpc (atomF sp) = 0x82 ∧ wordOk 64 (atomF sp) = true ∧ guardOf (atomF sp) (thr []) = true ∧
    wFs (atomF sp) = 3 ∧ wSpace (atomF sp) = sp ∧ srcMarked (atomF sp) (thr []) = false := by decide +kernel

theorem witness_atom_fs (sp) (h : sp ∈ [0, 1]) :
    IssuableOne (withMerge [] (st [(4, 0x1000)] (atomF sp))) one 0x82 (runOf (thr [(4, 0x1000)]) later (atomF sp)) kern
      (grp (thr [(4, 0x1000)]) later) 0 (atomF sp) 0 (thr [(4, 0x1000)]) :=
  have a := atom_fs_ok sp h
  issuable_merge _ [] 0x82 (atomF sp) a.1 a.2.1 a.2.2.1 rfl

theorem witness_atom_fs_rest :
    let c := thr [(4, 0x1000)]
    let f := fenceOp 0 3 (counted one 0x82 (withMerge [] (st c.regs (atomF 0))))
    let x := translate (.tile 0) 0 0x1000 .atomic true f.2
    let a := memAtom (threadPort x.2 0 false) .add false 0x1000 0 0 x.2
    f.1.dies = 0 ∧ f.2.issues 0 = true ∧ f.2.thread? 0 0 0 = some c ∧ x.1 = .ok 0x1000 false ∧ x.2.runKernel 0 = some kern ∧
    paKind 0x1000 = .hbm 0 ∧ (x.2.tile 0).mergeFind 0x10 = none ∧ a.1.met.dies = 0 ∧ a.2.eng.stalled = false ∧ a.2.thread? 0 0 0 = some c ∧
    a.2.issues 0 = true ∧ (a.2.tile 0).merge = [] := by decide +kernel

/-- The last instruction slot, and threads there. -/
def lastPc : Nat := pcEnd - 8
def lastThr : Thread := { pc := lastPc, regs := [(6, 16)] }
def lastRun (b : Thread) (w : W64) : Run := { runOf lastThr b w with icache := [(lastPc / 8, w)] }
def lastSt (b : Thread) (w : W64) : State :=
  { stOf lastThr b w with tiles := [(0, { tileOf lastThr b w with run := some (lastRun b w) })] }

theorem last_thr (w : W64) : regsBusy w lastThr = false ∧ lastThr.pmarked (fld w 2 0) = false := by
  simp [regsBusy, lastThr, Thread.busyIn, Thread.pmarked]

theorem last_ok : ∀ e ∈ words, issueChosen (lastRun lastThr e.2) both lastPc = true ∧ guardOf e.2 lastThr = true := by decide +kernel

/-- Every word of the instructions that only write registers, at the last slot; BRA, CALL and BRX there too. -/
theorem witness_last_slot (e) (h : e ∈ words) :
    Issuable (lastSt lastThr e.2) both e.1 (lastRun lastThr e.2) kern (grp lastThr lastThr) lastPc e.2 where
  live := rfl
  run := rfl
  going := rfl
  kernel := rfl
  group := rfl
  lanes := by decide
  threads := fun l hl =>
    match l, lane_lt 2 l hl with
    | 0, _ => ⟨lastThr, rfl, rfl, rfl, last_thr e.2⟩
    | 1, _ => ⟨lastThr, rfl, rfl, rfl, last_thr e.2⟩
  inside := by decide
  flaws := rfl
  hit := rfl
  cached := rfl
  opcode := (words_ok e h).1
  checked := (words_ok e h).2.1
  whole := fun l th hl _ _ _ =>
    match l, hl with
    | 0, _ => rfl
    | 1, _ => rfl
    | n + 2, hl => by simp [grp] at hl
  chosen := (last_ok e h).1

/-- BRX alone at the last slot. -/
theorem witness_brx_last :
    let w := word 0xA1 0 0 6 0
    issueChosen (lastRun later w) one lastPc = true ∧ guardOf w lastThr = true ∧ lastThr.marked (wSb w) = false ∧
    (lastThr.reg (wSb w)).toNat % 8 = 0 ∧ pcEnd ≤ lastPc + 8 ∧ lastPc < pcEnd := by decide +kernel

/-- GroupWideInstructions: both threads with each word are chosen as one set; one of them reaches it while the other is elsewhere. -/
theorem wide_chosen : ∀ e ∈ wides,
    let c := thr [(4, BitVec.ofNat 32 (2 ^ 23 - e.2.length))]
    issueChosen (runOf c c (word e.1 0 4 0 0)) both 0 = true ∧
    (let b := { c with st := .atGroupWide }
     issueChosen (runOf b b (word e.1 0 4 0 0)) both 0 = true ∧ wordOk 64 (word e.1 0 4 0 0) = true ∧ wOpc (word e.1 0 4 0 0) = e.1 ∧
     guardOf (word e.1 0 4 0 0) b = true) := by decide +kernel

theorem witness_wide_issuable (e) (he : e ∈ wides) :
    let c := thr [(4, BitVec.ofNat 32 (2 ^ 23 - e.2.length))]
    Issuable (wideSt e.1 e.2) both e.1 (runOf c c (word e.1 0 4 0 0)) kern (grp c c) 0 (word e.1 0 4 0 0) :=
  have h := wide_chosen e he
  { witness_wide_set e ⟨h.2.2.2.1, h.2.2.1⟩ with
    whole := fun l th hl _ _ _ =>
      match l, hl with
      | 0, _ => rfl
      | 1, _ => rfl
      | n + 2, hl => by simp [grp] at hl
    chosen := h.1 }

/-- The same threads blocked at it before. -/
def waitThr (d : List Byte) : Thread := { thr [(4, BitVec.ofNat 32 (2 ^ 23 - d.length))] with st := .atGroupWide }
def gatherSt (opc : Nat) (d : List Byte) : State :=
  let b := waitThr d
  { wideSt opc d with tiles := [(0, { (wideSt opc d).tile 0 with run := some (runOf b b (word opc 0 4 0 0)) })] }

theorem witness_gathered (e) (he : e ∈ wides) :
    let b := waitThr e.2
    Gathered (gatherSt e.1 e.2) both e.1 (runOf b b (word e.1 0 4 0 0)) kern (grp b b) 0 (word e.1 0 4 0 0) :=
  have h := wide_chosen e he
  { live := rfl, run := rfl, going := rfl, kernel := rfl, group := rfl, lanes := by decide
    threads := fun l th hl _ =>
      match l, hl with
      | 0, hl => by
        have e := Option.some.inj hl
        subst e
        exact ⟨rfl, rfl, by simp [waitThr, thr, Thread.pmarked]⟩
      | 1, hl => by
        have e := Option.some.inj hl
        subst e
        exact ⟨rfl, rfl, by simp [waitThr, thr, Thread.pmarked]⟩
      | n + 2, hl => by simp [grp] at hl
    flaws := rfl, cached := rfl, opcode := h.2.2.2.1, checked := h.2.2.1, chosen := h.2.1 }

/-- One thread at the word, the other elsewhere. -/
theorem witness_wide_one (opc : Nat) (w : W64) (ho : wOpc w = opc) (hc : wordOk 64 w = true) :
    IssueSet (st [] w) one opc (runOf (thr []) later w) kern (grp (thr []) later) 0 w ∧
    one.lanes.getLsbD 1 = false ∧ (grp (thr []) later).threads[1]? = some later ∧ later.st ≠ .exited ∧ later.st ≠ .atGroupWide :=
  ⟨{ live := rfl, run := rfl, going := rfl, kernel := rfl, group := rfl, lanes := by decide
     threads := fun l hl =>
       match l, lane_lt 1 l hl with
       | 0, _ => ⟨thr [], rfl, rfl, rfl, thr_free [] w⟩
     inside := by decide, flaws := rfl, hit := rfl, cached := rfl, opcode := ho, checked := hc },
   by decide, rfl, by decide, by decide⟩

/-- MatrixOperations on either array, with lists hit and with a signal: object 7 of context 0 is cached. -/
theorem witness_matrix_ends :
    (let o := { mxOp with a := { mxOp.a with list := true }, hits := [(0, clean (zs 4))] }
     listsHit o = true ∧ listsHit mxOp = false) ∧
    (∀ a ∈ [0, 1], let s := tileSt (fun x => x.putArray a { exec := [mxOp] }) (st [] 0)
     ((s.tile 0).array a).exec = [mxOp] ∧ (s.tile 0).run = some (runOf (thr []) later 0) ∧ s.kernel? 5 = some kern ∧
     firstBad (mxRunChecks ((s.tile 0).putArray a { exec := [] }) mxOp) = none) := by decide +kernel

theorem witness_sig_ready (w : W64) : SigReady (st [] w) 0 0 (some ⟨7, 1⟩) 3 ∧ SigReady (st [] w) 0 0 none 3 :=
  ⟨fun r hr => by
    have e := Option.some.inj hr
    subst e
    exact ⟨by decide, ⟨⟨rfl, by show 7 < 2 ^ 4; decide⟩, ⟨⟨0, 7, 3, true, true⟩, rfl, rfl, rfl⟩, fun d => match d with
      | 0 => rfl
      | _ + 1 => rfl⟩⟩,
   fun r hr => by simp at hr⟩

/-- EngineCompletions: a copy inside the scratchpad, a copy and a reduction to memory, and a copy to an address without a translation. -/
def copyIn : DxOp := { dxFields 5 .copy dxDesc with running := true }
def toMem (kind : DxKind) (dst : Nat) : DxOp := { dxFields 5 kind redDesc with running := true, dst := BitVec.ofNat 64 dst }
def dxSt (o : DxOp) : State := tileSt (fun x => { x with dx := [o] }) (st [] 0)
def dxXl (o : DxOp) : XRes × State :=
  translate (.tile 0) 0 o.dst.toNat (if o.kind = .red then .reduction else .dxWrite) true
    (drainAll 0 ((dxSt o).modTile 0 (fun x => { x with dx := [] }))).2

theorem witness_dx :
    (∀ o ∈ [copyIn, toMem .copy 0x1000, toMem .red 0x1000, toMem .copy (2 ^ 40), toMem .red (2 ^ 40)],
      ((dxSt o).tile 0).dx = [o] ∧ o.running = true ∧ o.count1 = 1 ∧ o.count2 = 1 ∧ 0 < o.len0 ∧ o.ssp = true ∧
      o.src.toNat + o.len0 ≤ 2 ^ 23 ∧ ((dxSt o).tile 0).merge = [] ∧ o.sig = none ∧ o.dst.toNat % 4096 + o.len0 ≤ 4096) ∧
    (copyIn.kind = .copy ∧ copyIn.dsp = true ∧ copyIn.src.toNat + copyIn.len0 ≤ copyIn.dst.toNat ∧ copyIn.dst.toNat + copyIn.len0 ≤ 2 ^ 23) ∧
    (∀ k ∈ [DxKind.copy, .red], (toMem k 0x1000).kind = k ∧ (toMem k 0x1000).dsp = false ∧
      (dxXl (toMem k 0x1000)).1 = .ok 0x1000 false ∧ hbmVisible 0x1000 = true ∧
      (let o := toMem k 0x1000
       let g := dxRead 0 [⟨0, spadPa 0 o.src.toNat, o.len0, false⟩] (dxXl o).2.took
       let w := match (if o.kind = .red then dxRedOf o.redOp o.redFmt else none) with
         | some (op, fmt) => memReduce (dxPort g.2 0 false) op fmt 0x1000 g.1.data g.2
         | none => memWrite (dxPort g.2 0 false) 0x1000 g.1.data g.2
       w.1.dies = 0 ∧ w.2.eng.stalled = false)) ∧
    (∀ k ∈ [DxKind.copy, .red], (dxXl (toMem k (2 ^ 40))).1 = .fault .notValid ∧ (dxXl (toMem k (2 ^ 40))).2.eng.stalled = false) := by
  decide +kernel

/-- BarriersAndExit: the lanes that EXIT and BAR.G act on. -/
theorem witness_barrier_sets : ∀ opc ∈ [0xA3, 0xA5],
    guarded one (word opc 0 0 0 0) (fun _ => thr []) = [0] ∧ guarded both (word opc 0 0 0 0) (fun _ => thr []) = [0, 1] := by decide +kernel


/-- InterleaveChanges: a band whose values stay valid, one whose values do not, and a change under way. -/
theorem witness_interleave :
    regionRsv 0 0 = false ∧ originFull .pf0 = true ∧
    (let r := State.reset.region 0 0
     let s1 := State.reset.setRegion 0 0 { r with next := 0, refused := false }
     bandValid 0 ((s1.bandNext 0).map (·.toNat)) = true ∧ Sparse.find? State.reset.pool.change 0 = none) ∧
    (let r := State.reset.region 0 0
     let s1 := State.reset.setRegion 0 0 { r with next := 1, refused := false }
     bandValid 0 ((s1.bandNext 0).map (·.toNat)) = false) ∧
    (let s := { State.reset with pool := { State.reset.pool with change := [(0, List.replicate 12 2)] } }
     Sparse.find? s.pool.change 0 = some (List.replicate 12 2) ∧ s.live = true) := by decide +kernel

/-! ### Server cores, host lines, translation -/

/-- Line 64 (PA 0x1000) Modified in core 0's L2, with its reservation; the line in the L3. -/
def cline : CLine := ⟨true, List.replicate 64 1, false⟩
def l2St : State := { State.reset with cores := { State.reset.cores with l2 := [(l2Key 0 64, cline)], resv := [(0, 64)] } }
def l3Shared : State := { State.reset with cores := { State.reset.cores with l3 := [(64, { cline with modified := false })] } }
def l3St : State := { State.reset with cores := { State.reset.cores with l3 := [(64, cline)] } }

theorem witness_cores :
    servesB l2St 0x1000 = true ∧ servesB l3St 0x1000 = true ∧ lineHeld l2St 64 = false ∧ lineHeld State.reset 64 = false ∧
    (State.reset.l2 0 64 = none ∧ ownerOf State.reset 64 = none ∧ State.reset.l3 64 = none) ∧
    (ownerOf l2St 64 = some (some 0, cline) ∧ 0x1000 % 64 + 64 ≤ 64) ∧
    (0x1000 % 8 = 0 ∧ KeySet.has State.reset.pool.poison (0x1000 / 32) = false) ∧
    (l2St.l2 0 64 = some cline ∧ cline.modified = true ∧ Sparse.find? l2St.cores.resv 0 = some 64) ∧
    Sparse.find? State.reset.cores.resv 0 = none ∧ cline.data.length = 64 ∧ (l3St.l3 64 = some cline ∧ Sparse.sortedFrom none l3St.cores.l3 = true) ∧
    (servesB l3Shared 0x1000 = true ∧ l3Shared.l2 0 64 = none ∧ ownerOf l3Shared 64 = none ∧
      l3Shared.l3 64 = some { cline with modified := false }) ∧
    hbmVisible (256 * 16) = true ∧ servesB l3Shared (64 * (0x1000 / 64)) = true ∧ lineHeld l3St 64 = false ∧ lineHeld l3Shared 64 = false ∧
    (∀ s ∈ [State.reset, l2St, l3St, l3Shared], s.cores.l3.length < l3Lines ∧ s.live = true) := by decide +kernel

/-- The other lines of the unit of line 64 have no owner, Modified as it is. -/
theorem witness_one_owner (l : Nat) (hu : l / 4 = 64 / 4) (hl : l ≠ 64) : ownerOf l2St l = none := by
  have h : l = 65 ∨ l = 66 ∨ l = 67 := by omega
  rcases h with rfl | rfl | rfl <;> decide +kernel

/-- No line of any unit has an owner after reset. -/
theorem witness_no_owner (l : Nat) : ownerOf State.reset l = none := rfl

/-- A line of host memory, Modified in the host-line cache, the link in CXL mode. -/
def hostLine : Nat := 0x100000000000 / 64
def hlcSt : State :=
  { State.reset with pcie := { State.reset.pcie with cxl := true }
                     cores := { State.reset.cores with hlc := [(hostLine, ⟨.m, List.replicate 64 1, false⟩)] } }

theorem witness_host :
    State.reset.pcie.linkUp = true ∧ 0x10FF + 1 ≤ State.reset.pcie.bar2Bytes ∧ hbmVisible 0x10FF = true ∧ servesB State.reset 0x10FF = true ∧ 0x10FF % 256 + 1 ≤ 256 ∧
    (∀ j, j < 8 → KeySet.has State.reset.pool.poison (0x10FF / 256 * 8 + j) = false) ∧
    hlcSt.live = true ∧ hlcSt.pcie.linkUp = true ∧ hlcSt.pcie.cxl = true ∧ paKind (64 * hostLine) = .host 0 ∧
    (∀ j, j < 48 → hlcSt.l2 j hostLine = none) ∧ hlcSt.l3 hostLine = none ∧ Sparse.sortedFrom none hlcSt.cores.hlc = true ∧
    Sparse.find? hlcSt.cores.hlc hostLine = some ⟨.m, List.replicate 64 1, false⟩ ∧
    1 ≤ (255 : W32).toNat ∧ (255 : W32).toNat ≤ 255 := by decide +kernel

/-- Context 0 with device tables: the root at 0x100000, and a 1 GiB leaf of all rights at virtual 0 in the table at 0x200000. -/
def treeSt : State :=
  { State.reset with
    ctxs := [(0, { state := .active, rootV := true, root := 0x100 })]
    pool := { State.reset.pool with
      hbm := Mem.setBytes (Mem.setBytes [] 0x100000 (toBytes 0x200001 8)) 0x200000 (toBytes 0x1F 8) } }

/-- PageWalks: an address under the leaf, the last one; a context without a root, and a walk that ends in a fault. -/
theorem witness_walks :
    (walk .hub 0 (2 ^ 30 - 1) treeSt).1 = .leaf (2 ^ 30) 0 true true true false ∧
    checkLeaf ⟨0, 0, 2 ^ 30, 0, true, true, true, false⟩ (needOf .store true) treeSt.cxlAccepted (2 ^ 30 - 1) = .ok (2 ^ 30 - 1) false ∧
    (walk .hub 0 (2 ^ 30) treeSt).1 = .fault .notValid ∧ ((walk .hub 0 (2 ^ 30) treeSt).2.ctx 0).fault.getLsbD 63 = false ∧
    (∀ va ∈ [2 ^ 30 - 1, 2 ^ 30], (walk .hub 0 va treeSt).2.eng.stalled = false) ∧
    (State.reset.ctx 0).rootV = false ∧ (State.reset.ctx 0).safelight = false := by decide +kernel

/-- A disabled window, an enabled one and one that drains. -/
def winSt (x : Window) : State := { State.reset with windows := [(0, x)] }

theorem witness_windows :
    ((State.reset.window 0).enable = false ∧ (State.reset.window 0).drain = false ∧ (State.reset.ctx 0).rootV = false ∧
      (treeSt.window 0).enable = false ∧ (treeSt.ctx 0).rootV = true) ∧
    ((winSt { enable := true, inflight := 1 }).window 0).enable = true ∧
    ((winSt { drain := true, pending := true }).window 0).drain = true ∧
    ((winSt { drain := true, pending := true }).window 0).inflight = 0 := by decide +kernel

/-! ### Objects, queues and commands -/

/-- A wait on object 3 with a target, a signal to it, both on their way. -/
def sigSt (target : W32) : State :=
  { State.reset with sync := { vals := [(3, 5)], waits := [⟨3, 6, .tile 0⟩], sigs := [⟨3, 1, none⟩], arrivals := [⟨3, target, .arm 0 7⟩], returns := [] } }

theorem witness_objects :
    Sparse.wf 0 (sigSt 6).sync.vals = true ∧ (sigSt 6).sync.sigs[0]? = some ⟨3, 1, none⟩ ∧ (sigSt 6).fenced (3 / 4096) = false ∧
    (sigSt 6).sync.arrivals[0]? = some ⟨3, 6, .arm 0 7⟩ ∧ 2 ^ 31 ≤ ((sigSt 6).obj 3 - 6).toNat ∧ ((sigSt 5).obj 3 - 5).toNat < 2 ^ 31 ∧
    Sparse.wf {} (sigSt 5).ctxs = true ∧ Sparse.wf {} ((sigSt 5).ctx 0).arms = true ∧ pageReach .pf0 0 State.reset = true ∧
    (sigSt 6).parted none 0 = false ∧ (sigSt 6).parted (Waiter.arm 0 7).die? 0 = false ∧ (sigSt 6).cutOff .hub 0 = false ∧
    -- die 0 in test
    (let s := { sigSt 6 with dies := [(0, { loopback := true })] }
     s.live = true ∧ s.parted none 0 = true ∧ s.parted (Waiter.arm 0 7).die? 0 = true) := by
  decide +kernel

/-- The hub's lookup gives the object 3. -/
def hubObj : State :=
  { State.reset with ctxs := [(0, { state := .active, objV := true, objSize := 4 })], hub := { State.reset.hub with objs := [⟨0, 7, 3, true, true⟩] } }

theorem witness_pages :
    objLookup 0 0 7 .signal hubObj = (.ok 3, hubObj) ∧ objLookup 0 0 7 .arm hubObj = (.ok 3, hubObj) ∧
    (∃ t, objLookup 0 0 7 .signal State.reset = (.error .range, t) ∧ t.eng.stalled = false) ∧
    hubObj.eng.stalled = false ∧ Sparse.wf {} hubObj.ctxs = true ∧ Sparse.wf {} (hubObj.ctx 0).arms = true :=
  ⟨rfl, rfl, ⟨_, rfl, rfl⟩, rfl, by decide, by decide⟩

/-- A submission queue of 16 slots at 0x400000 and a completion queue, ACTIVE. -/
def sq (tail : W32) (retries : Option Nat) : Sq := { base := 0x400, state := .active, tail := tail, retries := retries }
def cq0 : Cq := { base := 0x500, state := .active, tail := 4, head := 2 }
def qSt (tail : W32) (retries : Option Nat) (ring : List Byte) : State :=
  { State.reset with sqs := [(0, sq tail retries)], cqs := [(0, cq0)], pool := { State.reset.pool with hbm := Mem.setBytes [] 0x400000 ring } }

/-- QueuesAndDoorbells: tails at both ends of what is accepted, beyond it and behind; heads likewise. -/
theorem witness_bells :
    originBell .pf0 ((qSt 1 none []).sq 0).func.toNat = true ∧ (State.reset.sq 0).state = .disabled ∧
    ((1 : W32) - 1).toNat < 2 ^ 31 ∧ ((16 : W32) - 0).toNat ≤ 16 * 2 ^ (sq 1 none).l.toNat ∧
    16 * 2 ^ (sq 1 none).l.toNat < ((17 : W32) - 0).toNat ∧
    (∀ x ∈ [QState.draining, .error], ({ sq 1 none with state := x } : Sq).state = x) ∧ 2 ^ 31 ≤ ((0 : W32) - 1).toNat ∧ (sq 1 none).state = .active ∧
    ((2 : W32) - cq0.head).toNat < 2 ^ 31 ∧ (cq0.tail - 4).toNat ≤ 16 * 2 ^ cq0.l.toNat ∧
    2 ^ 31 ≤ ((1 : W32) - cq0.head).toNat ∧ 16 * 2 ^ cq0.l.toNat < (cq0.tail - 5).toNat := by decide +kernel

/-- The image of a NOP of position 0 under its seal: phase 1 and the CRC-16 of R278. -/
def sealed : List Byte := patch (zs 64) 12 (u32 (2 ^ 31 + crc16 (zs 64)))

theorem witness_fetch : ∀ n ∈ [none, some 1, some 32],
    (readCommand 0 (qSt 1 n sealed)).1 = .taken sealed ∧ (readCommand 0 (qSt 1 n (zs 64))).1 = .torn 0 false ∧
    (readCommand 0 { qSt 1 n sealed with pool := { (qSt 1 n sealed).pool with poison := [(0x400000 / 32, ())] } }).1 = .poison ∧
    ((qSt 1 n sealed).sq 0).state = .active ∧ ((qSt 1 n sealed).sq 0).tail ≠ ((qSt 1 n sealed).sq 0).head ∧
    ((readCommand 0 (qSt 1 n (zs 64))).2.sq 0).state = .active ∧
    (∀ b ∈ [sealed, zs 64], (readCommand 0 (qSt 1 n b)).2.eng.stalled = false) ∧ (qSt 1 n sealed).glb.ready = true := by decide +kernel

/-- And in host memory while no function may reach it. -/
theorem witness_fetch_unreachable :
    (readCommand 0 { State.reset with sqs := [(0, { sq 1 none with base := 0x100000000 })] }).1 = .unreachable ∧
    (readCommand 0 { State.reset with sqs := [(0, { sq 1 none with base := 0x100000000 })] }).2.eng.stalled = false := by decide +kernel

/-- An image of n slots with an opcode and fields by offset. -/
def img (opc n : Nat) (fields : List (Nat × List Byte)) : List Byte :=
  fields.foldl (fun b e => patch b e.1 e.2) ([BitVec.ofNat 8 opc, 0, BitVec.ofNat 8 (n - 1)] ++ zs (64 * n - 3))

/-- A state in which it is started, or under way, in queue 0 as command 7. -/
def cmdSt (p : CmdPhase) (b : List Byte) (s : State) : State :=
  { s with sqs := [(0, { sq 0 none with started := [⟨7, b, 0, p⟩] })], cqs := [(0, cq0)] }

theorem begun (b : List Byte) (s : State) (opc : Nat) (hl : s.live = true) (ho : leAt b 0 1 = opc) :
    Begun (cmdSt .started b s) 0 7 opc ⟨7, b, 0, .started⟩ := ⟨hl, rfl, ho, rfl⟩

theorem underWay (b : List Byte) (s : State) (opc : Nat) (hl : s.live = true) (ho : leAt b 0 1 = opc) :
    UnderWay (cmdSt .running b s) 0 7 opc ⟨7, b, 0, .running⟩ := ⟨hl, rfl, ho, rfl⟩

/-- StackBackgroundWork: a unit of stack 0 dirty in the near cache of die 0, where the agitator stands. -/
def dirtySt : State := { State.reset with dies := [(0, { nc := [(State.reset.paOfStack 0 0 / 256, true)] })] }

theorem witness_dirty_unit :
    unitDirty 0 (32 * (dirtySt.stack 0).agPos) dirtySt = true ∧ (dirtySt.stack 0).agPos + (8 - (dirtySt.stack 0).agPos % 8) < 2 ^ 30 ∧
    (dirtySt.stack 0).agDue = [] ∧ (dirtySt.stack 0).agEnable = true ∧ dirtySt.fenced 0 = false := by decide +kernel

/-- StackServiceCommands: generators and 1500 ports that run, and the bits of the commands; StackBackgroundWork: no route of DEGRADED strays. -/
theorem witness_service :
    (testSt.live = true ∧ testSt.lcService = true ∧ (testSt.tgen 0 0).running = false ∧ (testSt.stack 0).p1500Busy = false ∧
      (1 : W64).getLsbD 0 = true ∧ (1 : W64).getLsbD 1 = false ∧ (2 : W64).getLsbD 1 = true ∧ (0x800000 : W32).getLsbD 23 = true) ∧
    (let s := testSt.setTgen 0 0 { running := true }
     s.live = true ∧ s.lcService = true ∧ (s.tgen 0 0).running = true) ∧
    (let s := testSt.setStack 0 { p1500Busy := true }
     s.live = true ∧ (s.stack 0).p1500Busy = true) ∧ State.reset.lcService = false ∧
    strayRoute RasClass.degraded.code State.reset = none := by decide +kernel

/-- CoreLoadsAndStores: what a core did before a load of register space, and a load of a line that core 0 has Modified. -/
theorem witness_core_acts :
    paKind 0x7F0000000000 = .regs 0 ∧ Sparse.wf {} State.reset.cores.harts = true ∧ State.reset.l2 0 (0x7F0000000000 / 64) = none ∧
    lineHeld State.reset (0x7F0000000000 / 64) = false ∧ l2St.l2 1 64 = none ∧ ownerOf l2St 64 = some (some 0, cline) := by decide +kernel

/-- R237: time not below stimecmp interrupts, below vstimecmp not; FENCE.I empties the L1 instruction cache. -/
theorem test_core_acts :
    let a (x : CoreAct) : CoreLoad := { pa := 0x7F0000000000, acts := [x] }
    let h : Hart := { (State.reset.hart 0) with stimecmp := 0, vstimecmp := 1, l1i := [(7, [])] }
    let s := { State.reset with cores := { State.reset.cores with harts := [(0, h)] } }
    (after (exec (.coreLoadMiss 0 (a .readTimers) [] .none) s)).out = [.coreTimers 0 true false] ∧
    ((after (exec (.coreLoadMiss 0 (a .fenceI) [] .none) s)).hart 0).l1i = [] ∧
    ((after (exec (.coreLoadMiss 0 (a (.stimecmp 9)) [] .none) s)).hart 0).stimecmp = 9 := by decide +kernel


/-- Whether a result is one. -/
def isOk : Except ε α → Bool
  | .ok _ => true
  | .error _ => false

/-- Whether a result is one of which something holds. -/
def okAnd (r : Except ε α × State) (p : α → State → Bool) : Bool :=
  match r.1 with
  | .ok a => p a r.2
  | .error _ => false

/-- StartingAndPosting: a known and an unknown opcode at the head of the fetched ones; an entry with room in its ring. -/
def fetchedSt (opc : Nat) : State := { State.reset with
  sqs := [(0, { sq 0 none with admin := true, fetched := [⟨7, img opc 1 [], 0, .started⟩] })] }
def entry : Entry := ⟨0, .ok, 0, 1, 1, 0, 0, false, 0, true⟩
def postSt : State := { State.reset with cqs := [(0, { cq0 with tail := 17, head := 2, waiting := [entry] })] }

theorem witness_start :
    (∀ opc ∈ [0x00, 0xFF], mayStart 0 ⟨7, img opc 1 [], 0, .started⟩ (fetchedSt opc) = true) ∧
    startRefusal 0 ⟨7, img 0x50 1 [], 0, .started⟩ (fetchedSt 0x50) = none ∧ knownOpc 0xFF = false ∧
    ((postSt.cq 0).state = .active ∧ (postSt.cq 0).waiting = [entry] ∧ ((postSt.cq 0).tail - (postSt.cq 0).head).toNat ≠ 16) ∧
    (let w := memWrite (ringPort 0x500000 0) (0x500000 + 32 * 1) (clean (entryBytes entry 0)) (postSt.setCq 0 { cq0 with tail := 17, head := 2 })
     w.1.unreach = false ∧ w.1.dies = 0 ∧ w.2.eng.stalled = false) ∧ cq0.irqmode = 0 ∧
    (let s := { State.reset with pcie := { State.reset.pcie with bme := 1 } }
     let f := memWrite (ringPort 0x100000000000 0) (0x100000000020 + 4) (clean ((entryBytes entry 0).drop 4)) s
     let l := memWrite (ringPort 0x100000000000 0) 0x100000000020 (clean ((entryBytes entry 0).take 4)) f.2
     (f.1.and l.1).unreach = false ∧ (f.1.and l.1).dies = 0 ∧ l.2.eng.stalled = false ∧ l.2.out.length = 2) := by decide +kernel

/-- Queue enables: bits of SQ and CQ CTL, the ring of a legal size in place, an ACTIVE and a DRAINING queue. -/
theorem witness_enables :
    originQueue .pf0 = true ∧ (State.reset.sq 0).state = .disabled ∧ (State.reset.cq 0).state = .disabled ∧
    (0x11 : W64).getLsbD 0 = true ∧ (0x11 : W64).getLsbD 4 = true ∧ ((0x11 : W64).extractLsb' 21 6).toNat ≤ 32 ∧
    (let s := { State.reset with sqs := [(0, { base := 0x400 })], cqs := [(0, { base := 0x400 })] }
     (s.sq 0).l.toNat ≤ 12 ∧ (s.sq 0).state = .disabled ∧ (s.cq 0).state = .disabled ∧
     ringPlaced ((s.sq 0).base.toNat * 4096) (64 * 16) = true ∧ ringPlaced ((s.cq 0).base.toNat * 4096) (32 * 16) = true ∧
     Sparse.wf ({} : Sq) s.sqs = true ∧ Sparse.wf ({} : Cq) s.cqs = true) ∧
    ((0x01 : W64).extractLsb' 4 2 ≠ 3) ∧ (sq 0 none).state = .active ∧ (sq 0 none).fetched = [] ∧ (sq 0 none).started = [] ∧
    cq0.state = .active ∧ ({ cq0 with state := .draining } : Cq).waiting = [] := by decide +kernel

/-- NOP, FENCE, SIGNAL and WAIT (with a TIMEOUT) of object 7 of context 0; FENCE also behind an earlier command. -/
theorem witness_commands :
    (leAt (img 0x00 1 []) 0 1 = 0x00 ∧ leAt (img 0x01 1 []) 0 1 = 0x01 ∧
      (let b := img 0x02 1 [(16, [7])]
       leAt b 0 1 = 0x02 ∧ refOf (leAt b 16 8) = .loc 7) ∧
      (let b := img 0x03 1 [(16, [7]), (28, [1])]
       leAt b 0 1 = 0x03 ∧ refOf (leAt b 16 8) = .loc 7 ∧ leAt b 28 4 ≠ 0)) ∧
    Sparse.wf {} (cmdSt .started (img 0x00 1 []) hubObj).sqs = true ∧
    ((cmdSt .started (img 0x00 1 []) hubObj).cq ((cmdSt .started (img 0x00 1 []) hubObj).sq 0).cq.toNat).state ≠ .error ∧
    (∀ y ∈ ((cmdSt .started (img 0x01 1 []) hubObj).sq 0).started, 7 ≤ y.uid) ∧
    (let s := { hubObj with sqs := [(0, { sq 0 none with started := [⟨3, img 0 1 [], 0, .started⟩, ⟨7, img 1 1 [], 0, .started⟩] })] }
     startedCmd s 0 7 = some ⟨7, img 1 1 [], 0, .started⟩ ∧ ∃ y ∈ (s.sq 0).started, y.uid < 7) := by decide +kernel

theorem witness_command_lookup (p : CmdPhase) (b : List Byte) :
    objLookup 0 0 7 .signal (cmdSt p b hubObj) = (.ok 3, cmdSt p b hubObj) ∧
    objLookup 0 0 7 .wait (cmdSt p b hubObj) = (.ok 3, cmdSt p b hubObj)  ∧ hubObj.eng.stalled = false :=
  have hl : ∀ d, (cmdSt p b hubObj).fenced d = false := fun _ => rfl
  have hn : ¬ 2 ^ (4 : Nat) ≤ 7 := by decide
  ⟨lookup_cached _ 0 0 7 .signal ⟨0, 7, 3, true, true⟩ rfl hn rfl (not_lost _ _ hl) rfl,
    lookup_cached _ 0 0 7 .wait ⟨0, 7, 3, true, true⟩ rfl hn rfl (not_lost _ _ hl) rfl, rfl⟩

/-- LAUNCH of one tile, of the last tile, of none, and with ENTRY out of alignment; arguments of one slot inline. -/
def launchImg (mask entry : Nat) : List Byte :=
  img 0x10 2 [(16, toBytes entry 8), (32, u32 64), (36, [64]), (40, toBytes mask 12)]

theorem witness_launch :
    (∀ m ∈ [1, 2 ^ 95], (BitVec.ofNat 96 (leAt (launchImg m 8) 40 12)) ≠ 0 ∧
      ∀ t : TileId, State.reset.withdrawn t.val = false ∧ State.reset.fenced (t.val / 24) = false) ∧
    (let b := launchImg 1 8
     leAt b 0 1 = 0x10 ∧ leAt b 16 8 % 8 = 0 ∧ leAt b 32 4 ≤ 65536 ∧ leAt b 36 1 / 64 % 2 = 1 ∧
     leAt b 32 4 ≤ ((⟨7, b, 0, .started⟩ : Cmd).len - 1) * 64) ∧
    BitVec.ofNat 96 (leAt (launchImg 0 8) 40 12) = 0 ∧ leAt (launchImg 1 4) 16 8 % 8 ≠ 0 ∧
    ((cmdSt .started (launchImg 1 8) treeSt).ctx 0).state ≠ .draining := by decide +kernel

/-- Lengths of COPY, WRITE_INLINE and FILL at and past their limits, REDUCE_COPY aligned and not. -/
theorem witness_copies :
    (∀ opc ∈ [0x20, 0x22], ∀ n ∈ [0, 1, 2 ^ 40, 2 ^ 40 + 1],
      leAt (img opc 1 [(32, toBytes n 8)]) 0 1 = opc ∧ leAt (img opc 1 [(32, toBytes n 8)]) 32 8 = n) ∧
    (∀ n ∈ [0, 1, 64, 65], leAt (img 0x21 2 [(24, u32 n)]) 0 1 = 0x21 ∧ leAt (img 0x21 2 [(24, u32 n)]) 24 4 = n ∧
      ((⟨7, img 0x21 2 [(24, u32 n)], 0, .started⟩ : Cmd).len - 1) * 64 = 64) ∧
    (∀ n ∈ [256, 255], leAt (img 0x23 1 [(32, toBytes n 8)]) 0 1 = 0x23 ∧ leAt (img 0x23 1 [(32, toBytes n 8)]) 24 8 % 256 = 0 ∧
      leAt (img 0x23 1 [(32, toBytes n 8)]) 32 8 = n ∧ leAt (img 0x23 1 [(32, toBytes n 8)]) 40 1 = 0) := by decide +kernel

/-- The transfers of HubCopies over the leaf of treeSt: a fill that translates and one that does not, a copy to pieces elsewhere. -/
theorem witness_transfers :
    (let x := xlatRange .hub 0 .store true 0x1000 4 treeSt
     x.1.2 = none ∧ (writeXlated 0 x.1.1 (clean [1, 2, 3, 4]) x.2).2.eng.stalled = false) ∧
    (let x := xlatRange .hub 0 .store true (2 ^ 30) 4 treeSt
     x.1.2 ≠ none ∧ x.2.eng.stalled = false) ∧ treeSt.eng.stalled = false ∧
    (let a := xlatRange .hub 0 .load false 0x1000 4 treeSt
     let b := xlatRange .hub 0 .store true 0x2000 4 a.2
     let r := readXlated 0 a.1.1 b.2
     (writeXlated 0 b.1.1 r.1.data r.2).2.eng.stalled = false ∧
     a.1.2 = none ∧ b.1.2 = none ∧ ∀ p ∈ b.1.1, ∀ x ∈ a.1.1, overlap p.pa p.len x.pa x.len = false) ∧
    -- a reduction of a unit into another, and to where nothing translates
    redOf 0 0 = some (.add, .fp32) ∧
    (let a := xlatRange .hub 0 .load false 0x1000 256 treeSt
     let b := xlatRange .hub 0 .reduction true 0x2000 256 a.2
     let r := readXlated 0 a.1.1 b.2
     b.2.eng.stalled = false ∧ a.1.2 = none ∧ b.1.2 = none ∧ (∀ p ∈ b.1.1, hbmVisible p.pa = true) ∧
     (b.1.1.foldl (fun (acc : Met × State) p =>
        let w := memReduce (enginePort acc.2 0 p.coh) .add .fp32 p.pa ((r.1.data.drop p.off).take p.len) acc.2
        (acc.1.and w.1, w.2)) (({} : Met), r.2)).2.eng.stalled = false) ∧
    (let b := xlatRange .hub 0 .reduction true (2 ^ 30) 256 (xlatRange .hub 0 .load false 0x1000 256 treeSt).2
     b.1.2.isSome = true ∧ b.2.eng.stalled = false) := by decide +kernel

theorem witness_reduce_copy :
    let b := img 0x23 1 [(16, toBytes 0x1000 8), (24, toBytes 0x2000 8), (32, toBytes 256 8)]
    leAt b 0 1 = 0x23 ∧ leAt b 16 8 = 0x1000 ∧ leAt b 24 8 = 0x2000 ∧ leAt b 32 8 = 256 ∧ redOf (leAt b 40 1 % 4) (leAt b 40 1 / 4 % 8) = some (.add, .fp32) := by
  decide +kernel

/-- TranslationCommands: a MAP_RANGE waits while a load of the context is under way. -/
theorem witness_accesses_out :
    accessesOut (· == 0) { fillSt with ctxs := treeSt.ctxs } = true ∧ accessesOut (· == 0) treeSt = false ∧
    (performStores (· == 0) treeSt).eng.stalled = false := by decide +kernel

/-- MAP_RANGE of a second 1 GiB leaf and UNMAP_RANGE of the first; TLB_INVALIDATE of every scope. -/
theorem witness_translation :
    (let b := img 0x40 1 [(16, toBytes (2 ^ 30) 8), (32, toBytes (2 ^ 30) 8), (40, [2])]
     leAt b 0 1 = 0x40 ∧ mapRefusal ⟨7, b, 0, .started⟩ treeSt = none ∧ (mapFeature ⟨7, b, 0, .started⟩ treeSt).1 = .ok ∧
     okAnd (leafSlots 0 2 (65536 * 16384) 1 (2 ^ 30) treeSt) (fun l s =>
       (forEach ((List.range l.length).zip l) (fun e s => writeLeaf e.2 (3 + e.1 * 2 ^ 30) s) s).eng.stalled == false) = true) ∧
    ((treeSt.ctx 0).safelight = false ∧
     okAnd (validLeaves 0 0 (2 ^ 30) (2 ^ 30 / 65536 + 2) 0 treeSt) (fun l s =>
       !l.isEmpty && (forEach l (fun e s => writeLeaf e.1 (e.2 - 1) s) s).eng.stalled == false) = true) ∧
    (∀ sc ∈ [0, 1, 3], accessesOut (fun x => sc == 3 || x == 0) treeSt = false ∧
      (performStores (fun x => sc == 3 || x == 0) treeSt).eng.stalled = false ∧ Sparse.wf {} (performStores (fun x => sc == 3 || x == 0) treeSt).sqs = true ∧
      ∀ k ∈ tilesOfCtx (fun x => sc == 3 || x == 0) treeSt, (treeSt.tile k).merge = []) ∧
    (performSignals treeSt).eng.stalled = false ∧ Sparse.wf {} (performSignals treeSt).sqs = true ∧ treeSt.sync.sigs = [] ∧
    (∀ sc ∈ [0, 1, 2, 3], (⟨7, img 0x42 1 [(16, [BitVec.ofNat 8 sc])], 0, .started⟩ : Cmd).scope = sc) ∧
    Sparse.wf {} treeSt.tiles = true ∧ Sparse.wf {} treeSt.dies = true := by decide +kernel

/-- QUERY of the last item and of one more; FEATURE_NEGOTIATE unlocked and locked; POWER_BUDGET at the ends of its ranges. -/
theorem witness_queries :
    leAt (img 0x50 1 [(16, [6])]) 16 1 = 6 ∧ leAt (img 0x50 1 [(16, [7])]) 16 1 = 7 ∧
    State.reset.glb.locked = false ∧ ({ State.reset.glb with locked := true } : Glb).locked = true ∧
    State.reset.pwr.group = none ∧ State.reset.pwr.leave = [] ∧
    (∀ e ∈ [(700, 1000), (1800, 10000), (699, 1000), (1800, 10001)],
      let b := img 0x60 1 [(16, toBytes e.1 2), (18, toBytes e.2 2)]
      leAt b 0 1 = 0x60 ∧ leAt b 16 2 = e.1 ∧ leAt b 18 2 = e.2 ∧ leAt b 20 4 = 0) ∧
    -- the turn of a command, and another's
    (let s (d : List (Nat × Nat)) : State :=
       cmdSt .started (img 0x51 1 []) { State.reset with glb := { State.reset.glb with drvQ := d } }
     drvTurn 0 7 (s [(0, 7)]) = true ∧ drvTurn 0 7 (s []) = true ∧
     drvTurn 1 7 (s [(0, 7)]) = false) := by decide +kernel

/-- CONTEXT_CREATE of the FREE context 0; the drain of a context without commands, with and without the wipe. -/
def drainSt (wipe : Bool) : State := { treeSt with
  ctxs := [(0, { state := .draining, rootV := true, root := 0x100, wipe := wipe })] }

theorem witness_contexts :
    (State.reset.ctx 0).state = .free ∧ createRefusal (img 0x70 1 [(24, toBytes 0x100000 8)]) State.reset = none ∧
    Sparse.wf {} State.reset.windows = true ∧ (treeSt.ctx 0).state = .active ∧
    (∀ w ∈ [true, false], ((drainSt w).ctx 0).state = .draining ∧ ctxIdle (drainSt w) 0 = true ∧ ((drainSt w).ctx 0).pending = none ∧
      ((drainSt w).ctx 0).wipe = w ∧ Sparse.wf {} (drainSt w).ctxs = true) := by decide +kernel

/-- CONTEXT_PREEMPT of tile 0 with and without a kernel there, its time-out with and without force, CONTEXT_RESUME. -/
def preImg (flags mask : Nat) : List Byte :=
  img 0x72 1 [(16, [BitVec.ofNat 8 flags]), (20, u32 9), (24, toBytes 0x10000 8), (32, toBytes mask 12)]
def preSt (flags : Nat) : State := cmdSt .running (preImg flags 1) { st [] 0 with
  ctxs := [(0, { state := .active, preMask := 1, preempt := some ⟨0, 7⟩ })] }

def heldSt : State := { treeSt with ctxs := [(0, { state := .preempted, preMask := 1, preSave := 0x10000 })] }

theorem witness_preempt :
    preemptRefusal ⟨7, preImg 0 1, 0, .started⟩ (st [] 0) = none ∧ ((st [] 0).ctx 0).state = .active ∧
    ((st [] 0).ctx 0).preempt = none ∧ ((st [] 0).ctx 0).resetWaits = false ∧
    ctxRunsOn (st [] 0) 0 1 = true ∧ ctxRunsOn treeSt 0 1 = false ∧ (treeSt.ctx 0).state = .active ∧
    preemptRefusal ⟨7, preImg 0 1, 0, .started⟩ treeSt = none ∧
    (∀ f ∈ [0, 2], ((preSt f).ctx 0).preempt = some ⟨0, 7⟩ ∧ leAt (preImg f 1) 20 4 ≠ 0 ∧ leAt (preImg f 1) 16 1 = f ∧
      (preSt f).kernel? 5 = some kern ∧ kern.live &&& ((preSt f).ctx 0).preMask ≠ 0 ∧ kern.abort = none) ∧
    leAt (preImg 1 0) 16 1 % 2 = 1 ∧ BitVec.ofNat 96 (leAt (preImg 1 1) 32 12) = (heldSt.ctx 0).preMask ∧
    (heldSt.ctx 0).state = .preempted ∧ Sparse.wf {} heldSt.ctxs = true ∧ saveAreaOk 0x10000 1 = true ∧ otherRunsOn heldSt 0 1 = false ∧
    (preemptEnd 0 ((setPhase 0 7 .running (cmdSt .started (preImg 0 1) treeSt)).modCtx 0 (fun x => { x with
      preMask := 1, preSave := 0x10000, preempt := some ⟨0, 7⟩ }))).eng.stalled = false ∧
    (resumeOp 0 7 ⟨7, preImg 1 1, 0, .started⟩ (cmdSt .started (preImg 1 1) heldSt)).eng.stalled = false := by decide +kernel

/-- HostLink, FunctionsAndTheDriver: the link up and down; a function with Bus Master Enable, one whose drain ends after a function-level
reset. -/
def fnSt : State := { State.reset with
  pcie := { State.reset.pcie with bme := 1, vfEnable := true, numVfs := 32, drain := 1, flr := 1, pend := 1 } }

theorem witness_functions :
    State.reset.pcie.perst = false ∧ State.reset.pwr.pciePll = true ∧ Sparse.wf {} State.reset.sqs = true ∧
    Sparse.wf {} State.reset.cqs = true ∧ fnSt.pcie.bme.getLsbD 0 = true ∧ State.reset.pcie.linkUp = true ∧ State.reset.glb.ready = true ∧
    ({ State.reset.glb with ready := false } : Glb).ready = false ∧ State.reset.pcie.drain.getLsbD 0 = false ∧
    fnSt.pcie.vfEnable = true ∧ fnSt.pcie.numVfs ≤ 32 ∧ fnSt.pcie.drain.getLsbD 0 = true ∧ fnSt.pcie.flr.getLsbD 0 = true ∧
    (∀ c ∈ boundCtxs fnSt 0, (fnSt.ctx c).state ≠ .draining) ∧ funcExists 0 State.reset = true ∧ funcExists 0 fnSt = true ∧
    fnSt.pcie.pendFlr.getLsbD 0 = false ∧ State.reset.pcie.vfEnable = false ∧ Sparse.wf {} State.reset.pcie.cfg = true ∧ fnSt.live = true ∧ originQueue .pf0 = true ∧
    ((2 ^ 33 : W64).getLsbD 33 = true ∧ (2 ^ 33 : W64).getLsbD 34 = false) ∧ ((2 ^ 34 : W64).getLsbD 34 = true) ∧
    ((0x10 : W64).getLsbD 4 = true ∧ (treeSt.ctx 0).state ≠ .free) := by decide +kernel

/-! ### Collectives, checkpoints, the network -/

def upTo56 : Sparse Quad := [(0, { state := 2, peerv := true, peer := 5 }), (1, { state := 2, peerv := true, peer := 6 })]

/-- Node 3, with quad 1 UP to node 6 and quad 0 to node 5, whose incarnation 1 is held, and its window 0: 64 KiB of context 0 from 0x10000. -/
def netSt : State := { treeSt with
  ctxs := [(0, { state := .active, rootV := true, root := 0x100, objV := true, objSize := 4 })]
  hub := { State.reset.hub with objs := [⟨0, 7, 3, true, true⟩] }
  windows := [(0, { base := 1, len := 1, node := 5, w := true, r := true, sig := true, red := true, enable := true })]
  net := { State.reset.net with nodeId := 3, quad := upTo56, peers := [(5, { heldIncarn := some 1 })] } }

/-- Bytes in HBM at an address. -/
def withBytes (pa : Nat) (b : List Byte) (s : State) : State :=
  { s with pool := { s.pool with hbm := Mem.setBytes s.pool.hbm pa b } }

/-- A collective of one rank that copies 4 bytes from 0x1000 to 0x2000, with a TIMEOUT. -/
def collDesc : List Byte := [0x13, 0, 0, 0] ++ u32 1 ++ u32 0 ++ u32 9 ++ toBytes 4 8 ++ toBytes 0x1000 8 ++ toBytes 0x2000 8 ++ zs 36 ++ [5] ++ zs 19
def collImg : List Byte := img 0x30 1 [(16, toBytes 0x600000 8), (24, u32 96)]
def collSt : State := withBytes 0x600000 collDesc netSt

theorem witness_collective :
    (let r := engineRead 0 0x600000 96 collSt
     let a := engineRead 0 0x1000 4 r.2
     let w := engineWrite 0 0x2000 a.1.data a.2
     r.1.st.1 = .ok ∧ plain r.1.data = collDesc ∧ w.2.eng.stalled = false ∧ a.1.fail = false ∧ a.1.st = (.ok, 0) ∧ w.1.fail = false ∧ w.1.st = (.ok, 0) ∧
     ∀ e ∈ w.2.net.peers, ∀ x ∈ e.2.reqs, x.owner ≠ .coll 9) ∧
    leAt collImg 0 1 = 0x30 ∧ leAt collImg 16 8 = 0x600000 ∧ leAt collImg 24 4 = 96 ∧ descIllegal collDesc = none ∧ dRanks collDesc = 1 ∧
    0x10 ≤ dOp collDesc ∧ dSigv collDesc = false ∧ dId collDesc = 9 ∧ dSrc collDesc = 0x1000 ∧ dDst collDesc = 0x2000 ∧
    dCount collDesc = 4 ∧ dTimeout collDesc ≠ 0 ∧ collSt.eng.colls = [] ∧ collSt.eng.collQ = [] ∧ collSt.eng.aborts = [] := by
  decide +kernel

/-- The same, its schedule run, waiting on READY and on DATA. -/
def coll (w : CollWait) : Coll := ⟨0, 7, 0, 9, collDesc, 1, some w, 0, (.ok, 0)⟩
def waitColl (w : CollWait) : State := { netSt with eng := { netSt.eng with colls := [coll w] } }

theorem witness_collective_waits : ∀ w ∈ [CollWait.ready 1, .data 1],
    (waitColl w).coll? 9 = some (coll w) ∧ collWaiting (waitColl w) 9 = false ∧ (coll w).pc = (schedule collDesc).length ∧
    collOpen (waitColl w) 9 = false ∧ (waitColl w).eng.collQ = [] ∧ (advanceColl 9 (waitColl w)).eng.stalled = false ∧
    (failColl (coll w) (worse (coll w).st (.timeout, 0)) (some 3) (waitColl w)).eng.stalled = false ∧ (waitColl w).live = true := by decide +kernel

/-- A save of one 64 KiB block at 0 to window 0 of node 5. -/
def ckptDesc : List Byte := u32 1 ++ [1, 0, 0, 0] ++ u32 0x5000 ++ u32 0 ++ u32 1 ++ u32 2 ++ zs 40 ++ toBytes 0 8 ++ toBytes 65536 8
def ckptImg (opc : Nat) : List Byte := img opc 1 [(16, toBytes 0x600000 8), (24, u32 80)]
def ckptSt : State := withBytes 0x600000 ckptDesc netSt

theorem witness_save :
    (let r := engineRead 0 0x600000 80 ckptSt
     let x := allPieces 0 (blockVas ckptDesc) r.2
     r.1.st.1 = .ok ∧ plain r.1.data = ckptDesc ∧ isOk x.1 = true ∧ x.2.eng.stalled = false ∧
     ∀ i, i < kNbud ckptDesc → kBuddy ckptDesc i / 4096 ≠ x.2.net.nodeId.toNat ∧ (x.2.peer (kBuddy ckptDesc i / 4096)).lost = false ∧
       nlQuads x.2 (kBuddy ckptDesc i / 4096) ≠ []) ∧
    (∀ opc ∈ [0x38, 0x39], leAt (ckptImg opc) 0 1 = opc ∧ leAt (ckptImg opc) 24 4 = 64 + 16 * kNreg ckptDesc) ∧
    ckptIllegal ckptDesc true = none ∧ ckptIllegal ckptDesc false = none ∧ blockVas ckptDesc = [0] ∧
    ckptSt.eng.save = none ∧ ckptSt.eng.saveQ = [] ∧ ckptSt.eng.protect = [] := by decide +kernel

/-- A save that has one 4 KiB piece to read. -/
def saveV : Save :=
  { q := 0, uid := 7, ctx := 0, restore := false, desc := ckptDesc, gen := 1, phase := .blocks, pas := [[0x1000]], blocks := [(0, .waiting)]
    staging := [], copied := 0, bad := none, st := (.ok, 0), buddies := [⟨0x5000, false, false, false⟩], crcs := [], man0 := [], man1 := []
    buddy := 0, supplied := 0 }
def savingSt : State := { netSt with eng := { netSt.eng with save := some saveV, protect := [(1, ())] } }

theorem witness_saving :
    savingSt.eng.save = some saveV ∧ lowestWaiting saveV = some 0 ∧ saveV.pas[0]? = some [0x1000] ∧ saveV.staging = [] ∧
    savingSt.eng.heldRx = [] ∧ saveV.staging.length < 64 ∧ (ckptReadBlock 0 true savingSt).eng.stalled = false ∧
    (readPieces (hbmRead .hub .streaming) (unitPieces 0x1000 4096) savingSt).2.eng.stalled = false ∧ Sparse.sortedFrom none saveV.blocks = true ∧ Sparse.sortedFrom none savingSt.eng.protect = true ∧
    liveBuddies saveV ≠ [] ∧ (∀ y ∈ saveV.buddies, y.node ≠ savingSt.net.nodeId.toNat ∧ (savingSt.peer y.node).lost = false ∧
      nlQuads savingSt y.node ≠ []) ∧
    isProtected 0x10FF savingSt = true ∧ blockIndex savingSt 0x10FF = some 0 ∧ otherWaits saveV 0 0x10FF = false ∧
    servesB { savingSt with eng := { savingSt.eng with protect := [] } } 0x10FF = true ∧ 0x10FF % 256 + 1 ≤ 256 := by decide +kernel

/-- A frame of a type from node 5 with a PSN, ARG and payload, next in sequence, with its ICRC. -/
def sealFrame (f : Frame) : Frame := { f with icrc := BitVec.ofNat 32 (frameIcrc f) }
def fr (typ : Byte) (psn : W32) (arg : W64) (arg2 : W32) (payload : List Byte) : Frame :=
  sealFrame ⟨0, true, 1, typ, false, 0, false, false, 5, 3, 0, psn, arg, 1, 0, 0, arg2, payload, 0⟩

theorem crcLsb_lt (r k : Nat) (h : r < 2 ^ 32) : crcLsb 0x82F63B78 r k < 2 ^ 32 := by
  induction k generalizing r with
  | zero => exact h
  | succ k ih =>
    rw [crcLsb]
    split
    · exact ih _ (Nat.xor_lt_two_pow (by omega) (by decide))
    · exact ih _ (by omega)

theorem crc32c_lt (bs : List Byte) : crc32c bs < 2 ^ 32 := by
  have step : ∀ (l : List Byte) (r : Nat), r < 2 ^ 32 → l.foldl (fun r b => crcLsb 0x82F63B78 (r ^^^ b.toNat) 8) r < 2 ^ 32 := by
    intro l
    induction l with
    | nil => exact fun r h => h
    | cons b l ih =>
      intro r h
      exact ih _ (crcLsb_lt _ _ (Nat.xor_lt_two_pow h (by have := b.isLt; omega)))
  exact Nat.xor_lt_two_pow (step bs _ (by decide)) (by decide)

theorem sealFrame_whole (f : Frame) : (sealFrame f).icrc.toNat = frameIcrc (sealFrame f) := by
  show (BitVec.ofNat 32 (frameIcrc f)).toNat = frameIcrc f
  rw [BitVec.toNat_ofNat]
  exact Nat.mod_eq_of_lt (crc32c_lt _)

theorem arrives (s : State) (typ : Byte) (psn : W32) (arg : W64) (arg2 : W32) (payload : List Byte) (hl : s.live = true)
    (hq : s.quad 0 = netSt.quad 0) (hn : s.net.nodeId = 3) (hp : (s.peer 5).heldIncarn = some 1) :
    Arrives s (fr typ psn arg arg2 payload) typ.toNat where
  live := hl
  up := by show (s.quad 0).state = 2; rw [hq]; rfl
  role := by show (s.quad 0).role = 1; rw [hq]; rfl
  whole := ⟨rfl, sealFrame_whole _⟩
  next := by
    constructor
    · show (1 : W64).extractLsb' 0 12 = (s.quad 0).ackseq + 1
      rw [hq]; decide +kernel
    · show (1 : W64).getLsbD 24 = false; decide
  typ := rfl
  here := ⟨by rw [hn]; decide, hn.symm⟩
  same := hp

theorem witness_arrives (typ : Byte) (psn : W32) (arg : W64) (arg2 : W32) (payload : List Byte) :
    Arrives netSt (fr typ psn arg arg2 payload) typ.toNat := arrives netSt typ psn arg arg2 payload rfl rfl rfl rfl

/-- The same module while the 1500 port of the stack of physical address 0x1000 is busy: a write there must wait (R216). -/
def busyNet : State := netSt.modStack (netSt.home 0x10000).1 (fun x => { x with p1500Busy := true })

/-- RequestsReceived: a new request and a duplicate; a window that accepts, one that refuses for its range, and a home at which the write
waits; a READ of the longest length; a signal to object 7. -/
theorem witness_requests :
    (netSt.peer 5).duplicate 0 = false ∧ (netSt.peer 5).done.length < 2 ^ 30 ∧ (netSt.peer 5).duplicate 0xFFFFFFFF = true ∧
    netSt.eng.heldRx = [] ∧ netSt.eng.stalled = false ∧
    (let s1 := heardReq (fr 1 0 0 0 [1]) netSt
     let w := winStore (.quad 0) 0 5 0xFFFF (framePB (fr 1 0 0xFFFF 0 [1])) none s1
     let e := winStore (.quad 0) 0 5 0x10000 (framePB (fr 1 0 0x10000 0 [1])) none s1
     isOk w.1 = true ∧ w.2.eng.stalled = false ∧ isOk e.1 = false ∧ e.2.eng.stalled = false) ∧
    (let w := winStore (.quad 0) 0 5 0 (framePB (fr 4 0 0 0 (zs 256))) (some (.add, .fp32)) (heardReq (fr 4 0 0 0 (zs 256)) netSt)
     isOk w.1 = true ∧ w.2.eng.stalled = false) ∧
    (let r := winObject 0 5 7 (heardReq (fr 3 0 (7 + 2 ^ 32) 0 []) netSt)
     okAnd r (fun p _ => p == 3) = true ∧ r.2.eng.stalled = false ∧ r.2.parted none 0 = false ∧ r.2.fenced 0 = false ∧ Sparse.wf 0 r.2.sync.vals = true) ∧
    (let r := winObject 0 5 7 (heardReq (fr 3 0 (7 + 2 ^ 32) 0 []) { netSt with dies := [(0, { loopback := true })] })
     okAnd r (fun p _ => p == 3) = true ∧ r.2.eng.stalled = false ∧ r.2.parted none 0 = true) ∧
    (let r := winObject 0 5 16 (heardReq (fr 3 0 (16 + 2 ^ 32) 0 []) netSt)
     isOk r.1 = false ∧ r.2.eng.stalled = false) ∧
    (let w := winLoad (.quad 0) 0 5 0 4096 (heardReq (fr 2 0 0 4096 []) netSt)
     isOk w.1 = true ∧ w.2.eng.stalled = false) ∧
    redOf 0 0 = some (.add, .fp32) ∧ (4096 : W32).toNat ≤ 1024 * 2 ^ netSt.net.maxpay.toNat ∧ netSt.coll? 1 = none := by decide +kernel

/-- The frame also arrives while the write of it must wait. -/
theorem witness_held_write :
    Arrives busyNet (fr 1 0 0 0 [1]) 1 ∧ busyNet.eng.stalled = false ∧
    (winStore (.quad 0) 0 5 0 (framePB (fr 1 0 0 0 [1])) none (heardReq (fr 1 0 0 0 [1]) busyNet)).2.eng.stalled = true :=
  ⟨arrives busyNet 1 0 0 0 [1] rfl rfl rfl rfl, rfl, by decide +kernel⟩

/-- A power group of nodes 3 and 5. -/
def cfg : GroupCfg := ⟨2000, 2, [3, 5], 0⟩
def groupSt : State := { netSt with pwr := { netSt.pwr with group := some cfg } }
/-- ARG of a BUDGET frame of a kind from index 1 of group 2 with watts. -/
def budget (kind watts : Nat) : W64 := BitVec.ofNat 64 (kind + 4 + 2 * 2 ^ 16 + watts * 2 ^ 32)

theorem witness_group : ∀ kind ∈ [0, 1, 2],
    fromMember (fr 0x10 0 (budget kind 10) 1 []) groupSt = true ∧ ((budget kind 10).extractLsb' 0 2).toNat = kind ∧
    groupSt.pwr.leave = [] ∧ groupSt.pwr.full = false ∧ groupSt.pwr.seen.contains (5, 1) = false ∧
    (fr 0x10 0 (budget kind 10) 1 []).win = 0 ∧ (fr 0x10 0 (budget kind 10) 1 []).payload = [] ∧
    ({ groupSt.pwr with seen := [(5, 1)] } : Pwr).seen.contains (5, 1) = true ∧ cfg.base + groupSt.pwr.received + 10 ≤ 1800 := by decide +kernel

/-- AnswersReceived: one unanswered request of command 7 at node 5, or of collective 9; a request at its last retransmission. -/
def req (owner : NetOwner) (typ tries : Nat) : NetReq := ⟨4, typ, fr (BitVec.ofNat 8 typ) 4 0x2000 0 [], tries, owner, false⟩
def reqSt (r : NetReq) : State := cmdSt .running (img 2 1 []) { netSt with
  net := { netSt.net with peers := [(5, { heldIncarn := some 1, reqs := [r] })] } }

theorem witness_answers :
    (let s := reqSt (req (.cmd 0 7) 0x01 0)
     startedCmd s 0 7 = some ⟨7, img 2 1 [], 0, .running⟩ ∧ Sparse.wf {} s.sqs = true ∧
     (s.peer 5).reqs.filter (fun x => !x.held && (decide ((x.psn - 4).toNat < 1) && x.typ != 0x02)) = [req (.cmd 0 7) 0x01 0] ∧
     (s.peer 5).reqs.filter (fun x => !x.held && x.psn == 4) = [req (.cmd 0 7) 0x01 0] ∧
     (takeAnswered 5 false false (fun x => x.psn == 4) (heard (fr 9 0 (4 + 2 ^ 32) 0 []) s)).2.eng.stalled = false) ∧
    (let s := { reqSt (req (.coll 9) 0x02 0) with eng := { netSt.eng with colls := [coll (.data 1)] } }
     (s.peer 5).reqs.filter (fun x => !x.held && (x.psn == 4 && x.typ == 0x02)) = [req (.coll 9) 0x02 0] ∧
     s.coll? 9 = some (coll (.data 1)) ∧ (coll (.data 1)).wait ≠ some .answers ∧
     let u := (takeAnswered 5 false false (fun x => x.psn == 4 && x.typ == 0x02) (heard (fr 8 4 0 0 [1]) s)).2
     (engineWrite 0 0x2000 (framePB (fr 8 4 0 0 [1])) u).2.eng.stalled = false) ∧
    (∀ tries ∈ [7, 8], let s := reqSt (req .none 0x01 tries)
     (s.peer 5).reqs.findIdx? (fun x => x.psn.toNat == 4 && !x.held) = some 0 ∧ (tries < s.net.retries.toNat ↔ tries = 7) ∧
     (timeoutOp 5 4 s).eng.stalled = false ∧ s.eng.colls = [] ∧ s.eng.collQ = [] ∧ s.eng.save = none ∧ s.eng.saveQ = []) ∧
    Sparse.wf {} netSt.net.peers = true ∧ (2 ^ 52 : W64).getLsbD 52 = true ∧ (0x40 : W64).getLsbD 6 = true := by decide +kernel

theorem witness_answer_arrives (r : NetReq) (psn : W32) (arg : W64) (arg2 : W32) (payload : List Byte) :
    (∀ typ ∈ [(9 : Byte), 0x0A], Arrives (reqSt r) (fr typ psn arg arg2 payload) typ.toNat) ∧
    Arrives { reqSt r with eng := { netSt.eng with colls := [coll (.data 1)] } } (fr 8 psn arg arg2 payload) 8 :=
  ⟨fun typ _ => arrives (reqSt r) typ psn arg arg2 payload rfl rfl rfl rfl, arrives _ 8 psn arg arg2 payload rfl rfl rfl rfl⟩

/-- QuadsAndRings: a quad that trains and one that has failed; one with a frame to send again, at and below the limit; rings. -/
def quadSt (q : Quad) : State := { State.reset with net := { State.reset.net with nodeId := 3, quad := [(0, q)] } }
def held (inRow : Nat) : Quad := { state := 2, peerv := true, peer := 5, inRow := inRow, replayBuf := [(0, 0x01, fr 1 0 0 0 [])] }
def ringSt (head : W32) : State := { State.reset with net := { State.reset.net with
  quad := [(0, { role := 2, state := 2 })]
  nicTx := [(0, { state := .active, enable := true })]
  nicRx := [(0, { state := .active, enable := true, base := 0x400, head := head, tail := 1 })] } }

theorem witness_quads :
    State.reset.pwr.serdesPll = true ∧ (State.reset.quad 0).role = 1 ∧ (State.reset.quad 0).state = 0 ∧
    ((quadSt { state := 3 }).quad 0).state = 3 ∧
    (∀ n ∈ [15, 16], ((quadSt (held n)).quad 0).role = 1 ∧ ((quadSt (held n)).quad 0).state = 2 ∧ ((quadSt (held n)).quad 0).replayBuf.filter (fun e => !([] : List Nat).contains e.1) ≠ [] ∧
      ((quadSt (held n)).quad 0).replayBuf.filter (fun e => !([7] : List Nat).contains e.1) ≠ [] ∧
      ((quadSt (held n)).quad 0).inRow = n ∧ ((quadSt (held n)).quad 0).waitq = []) ∧
    -- the quads of an 8-lane port: neither trained, the other trained, and the FAILED one
    (∀ e ∈ [((0 : BitVec 2), (0 : BitVec 4)), (0, 15), (3, 0)],
      let s := { State.reset with net := { State.reset.net with quad := [(0, { role := 3, state := e.1 }), (1, { role := 3, lanes := e.2 })] } }
      (s.quad 0).role = 3 ∧ (s.quad 1).role = 3 ∧ (s.quad 0).state = e.1 ∧ (s.quad 1).lanes = e.2 ∧ s.live = true) ∧
    -- a transmit ring with a descriptor to do
    (((ringSt 0).nicTx 0).state = .active ∧ nicQuad (ringSt 0) = some 0 ∧ (1 : W64).extractLsb' 0 32 ≠ ((ringSt 0).nicTx 0).head ∧
      (ringSt 0).eng.stalled = false) ∧
    Sparse.wf {} (ringSt 0).net.nicTx = true ∧ ((ringSt 0).nicTx 0).state = .active ∧ nicQuad (ringSt 0) ≠ none ∧
    (nicTailOp 0 1 (ringSt 0)).eng.stalled = false ∧
    (nicRings (ringSt 0))[ringHash [1, 2, 3] % (nicRings (ringSt 0)).length]? = some 0 ∧ (ringSt 0).glb.drvAccept.getLsbD 3 = false ∧
    (let d := memRead (hubPort 0) 0x400000 16 (ringSt 0)
     let w := memWrite ⟨.hub, 0, .streaming, true⟩ (leAt (plain d.1.data) 0 8) (clean [1, 2, 3]) d.2
     (memWrite (hubPort 0) 0x400008 (clean (toBytes 3 2 ++ toBytes (1 + nicSumBits [1, 2, 3] + 128) 1)) w.2).2.eng.stalled = false) ∧
    2 ≤ ((ringSt 0).quad 0).role.toNat ∧
    ((ringSt 1).nicRx 0).head = ((ringSt 1).nicRx 0).tail ∧ ((ringSt 0).nicRx 0).head ≠ ((ringSt 0).nicRx 0).tail ∧
    2048 ≤ 2048 * 2 ^ ((ringSt 0).nicRx 0).bufsz.toNat := by decide +kernel


/-! ### Power, supplies, die loss, resets, control -/

/-- One die changed. -/
def dieSt (d : Die) : State := { State.reset with dies := [(0, d)] }

/-- A write of PWR_CAP. -/
def capW (cap win : Nat) : W64 := BitVec.ofNat 64 (cap + 2 ^ 16 * win)

theorem witness_power :
    State.reset.serviceDown 2 = false ∧ originPwr .pf0 = true ∧ originPwr (.tile 0) = false ∧
    (∀ e ∈ [(700, 1000), (1800, 10000), (699, 4000), (1800, 10001)],
      ((capW e.1 e.2).extractLsb' 0 11).toNat = e.1 ∧ ((capW e.1 e.2).extractLsb' 16 14).toNat = e.2) ∧
    State.reset.fenced 0 = false ∧ (State.reset.die 0).droops = 0 ∧ (dieSt { droops := 1 }).live = true ∧
    ((dieSt { droops := 1 }).die 0).droops ≠ 0 ∧ ((dieSt { phase := .clamped 1 }).die 0).phase = .clamped 1 ∧
    ((dieSt { phase := .switchedLow }).die 0).droops = 0 ∧
    (let s := dieSt { phase := .switched }
     (s.die 0).phase = .switched ∧ (if s.pwr.target < (s.die 0).steps then (s.die 0).steps else s.pwr.target) = (s.die 0).point) ∧
    ((dieSt { phase := .rampUp 1 }).die 0).phase = .rampUp 1 ∧ ((dieSt { phase := .rampDown }).die 0).phase = .rampDown ∧
    Sparse.wf {} (dieSt { phase := .rampDown }).dies = true ∧ (State.reset.die 0).phase = .idle ∧
    (3 : W64).extractLsb' 0 2 = 3 ∧ (2 : W64).extractLsb' 0 2 ≠ 3 ∧ (State.reset.die 0).point < 2 ∧
    (2 : BitVec 2) < ((dieSt { point := 3 }).die 0).point := by decide +kernel

/-- The module with some inputs. -/
def inputs (aux io main : Bool) : State :=
  { State.reset with pwr := { State.reset.pwr with auxV := aux, ioV := io, mainV := main } }

/-- A power group of nodes 3 and 5 that has a grant and a donation; a group left by command 7. -/
def givenSt : State := { groupSt with pwr := { groupSt.pwr with recv := [⟨5, 1, 10, true⟩], don := [⟨5, 2, 10, false⟩] } }
def renewSt : State := { givenSt with pwr := { givenSt.pwr with don := [⟨5, 2, 10, true⟩] } }
def cappedSt : State := { givenSt with pwr := { givenSt.pwr with cap := 700 } }
def leaveSt : State := cmdSt .running (img 0x60 1 []) { groupSt with pwr := { groupSt.pwr with leave := [(0, 7)] } }

theorem witness_thermal :
    (List.replicate 5 (105 : BitVec 8)).length = 5 ∧ (List.replicate 12 (95 : BitVec 8)).length = 12 ∧
    Sparse.wf {} State.reset.pool.stack = true ∧
    (let x := (dieSt { lowMs := 100 }).die 0
     100 ≤ x.lowMs ∧ x.steps < 2 ∧ x.phase = .idle ∧ x.point = x.steps ∧ State.reset.pwr.target = 0) ∧
    ((dieSt { lowMs := 99 }).die 0).lowMs < 100 ∧ 1000 ≤ ((dieSt { coldMs := 1000, steps := 1 }).die 0).coldMs ∧
    ((dieSt { coldMs := 1000, steps := 1 }).die 0).steps ≠ 0 ∧ (State.reset.die 0).coldMs < 1000 ∧ originFull .pf0 = true ∧
    ((1 : W32).extractLsb' 0 3).toNat < 2 ∧ 2 ≤ ((7 : W32).extractLsb' 0 3).toNat ∧ State.reset.srvAct 0 < 7 ∧
    (let s := { State.reset with cores := { State.reset.cores with srvDiv := [(0, 3)], srvAct := [(0, 7)], srvRamp := [0] } }
     2 < s.srvAct 0 ∧ 0 ∈ s.cores.srvRamp ∧ Sparse.wf 2 s.cores.srvDiv = true ∧ Sparse.wf 2 s.cores.srvAct = true) ∧
    State.reset.pwr.group = none ∧ (groupSt.pwr.group = some cfg ∧ cfg.my < 64 ∧ groupSt.pwr.leave = [] ∧ givenSt.pwr.recv ≠ [] ∧
      cfg.members.eraseIdx cfg.my = [5] ∧ groupSt.net.nodeId ≠ 5 ∧ (groupSt.peer 5).lost = false) ∧
    -- counts with no command waiting: 10 % and more, between, below 2 %
    (∀ c ∈ [100000, 20000, 19999], (epochOp c givenSt).eng.stalled = false ∧ (epochOp c renewSt).eng.stalled = false ∧
      max givenSt.pwr.epochBusy (min (1000000 - (givenSt.pwr.epochTicks - givenSt.pwr.epochBusy)) c) = c) ∧
    ¬(givenSt.pwr.cap < givenSt.pwr.share) ∧ cappedSt.pwr.cap < cappedSt.pwr.share ∧ cappedSt.pwr.recv ≠ [] ∧
    (epochOp 20000 cappedSt).eng.stalled = false ∧ renewSt.pwr.don = [] ++ ⟨5, 2, 10, true⟩ :: [] ∧
    -- a module that is not live with VIN_AUX and without, and control that runs
    ((inputs true false false).live = false ∧ (inputs true false false).pwr.auxV = true ∧ (inputs false false false).live = false ∧
      (inputs false false false).pwr.auxV = false ∧ State.reset.serviceDown 2 = false ∧ State.reset.aux.unknown = false) ∧
    givenSt.pwr.don ≠ [] ∧ (leaveSt.pwr.don = [] ∧ leaveSt.pwr.leave = [(0, 7)] ∧
      startedCmd leaveSt 0 7 = some ⟨7, img 0x60 1 [], 0, .running⟩ ∧ leAt (img 0x60 1 []) 20 4 = 0) := by decide +kernel

/-- The image of State.reset carries the digest of its empty body (FIPS 202: SHAKE256 of no bytes begins 46 B9 DD 2B). -/
theorem test_reset_image : digestHolds State.reset.flash.slotA = true ∧
    digestHolds ⟨Mem.setByte State.reset.flash.slotA.raw 32 0x47, true⟩ = false ∧
    ((slotHeader State.reset.flash.slotA).drop 32).take 4 = [0x46, 0xB9, 0xDD, 0x2B] := by decide +kernel

/-- SuppliesClocksAndPins: inputs in and out of order, monitors in an unknown state, a hub loss whose cause is held, REFCLK gone. -/
theorem witness_supplies :
    (∀ io main, let s := { inputs true io main with aux := { State.reset.aux with unknown := true } }
      s.pwr.auxV = true ∧ s.aux.seqFault = false ∧ s.aux.unknown = true ∧ s.pwr.ioV = io ∧ s.pwr.mainV = main) ∧
    (inputs true true false).aux.unknown = false ∧
    (∀ c ∈ [3, 4], ({ State.reset.aux with cause := some c } : Aux).cause = some c) ∧ State.reset.flash.stores = [] ∧
    (inputs false true false).pwr.auxV = false ∧ (inputs false true false).pwr.ioV = true ∧ (inputs true false false).aux.seqFault = false ∧
    ({ State.reset.pwr with refclk := false } : Pwr).refclk = false ∧ State.reset.glb.resetting = none ∧ State.reset.pcie.linkUp = true ∧
    ({ State.reset.pwr with pciePll := false, serdesPll := false } : Pwr).pciePll = false ∧ Sparse.wf {} State.reset.net.quad = true ∧
    ({ State.reset.pcie with linkUp := false } : Pcie).linkUp = false ∧ State.reset.live = true ∧ (inputs true true true).pwr.mainV = true := by
  decide +kernel

/-- DieLoss: die 0 in service with a kernel, one that has missed seven heartbeats, a fenced one, one that exposes; modules of every role. -/
theorem witness_die_loss :
    (st [] 0).fenced 0 = false ∧ Sparse.wf {} (st [] 0).dies = true ∧ Sparse.wf {} (st [] 0).tiles = true ∧
    (st [] 0).kernel? 5 = some kern ∧ (kern.live ||| kern.todo).getLsbD 0 = true ∧ kern.abort = none ∧
    (7 ≤ ((dieSt { hbMissed := 7 }).die 0).hbMissed ∧ (0xE : BitVec 4).getLsbD 0 = false ∧
      (∀ e : DieId, e ≠ 0 → (dieSt { hbMissed := 7 }).fenced e.val = true ∨ (0xE : BitVec 4).getLsbD e.val = true)) ∧
    (dieSt { fenced := true }).fenced 0 = true ∧ ((dieSt { exposing := true }).die 0).exposing = true ∧
    (∀ d : DieId, State.reset.fenced d.val = false → (0 : BitVec 4).getLsbD d.val = true ∨ (State.reset.die d.val).hbMissed < 7) ∧
    testSt.lcService = true ∧ State.reset.lcService = false ∧
    -- a module that stands still with its rails on, and one without
    (let s := { State.reset with pwr := { State.reset.pwr with refclk := false } }
     s.live = false ∧ s.powered = true) ∧ (inputs true false false).powered = false := by decide +kernel

/-- Modules of every role: the control modules of the hub edge and of the partner edge, a mission module, a spare, a failed one. -/
theorem witness_roles :
    roleOf (State.reset.die 0).roles 15 = 2 ∧ roleOf (State.reset.die 0).roles 23 = 2 ∧ roleOf (State.reset.die 0).roles 0 = 0 ∧
    roleOf (State.reset.die 0).roles 12 = 1 ∧ roleOf ((dieSt { roles := BitVec.allOnes 48 }).die 0).roles 0 = 3 := by decide +kernel

/-- Resets: a requested cold reset; key and bits of the warm, die, tile and context resets; a fenced die that is cool, and a hot one. -/
theorem witness_resets :
    (let s := { State.reset with glb := { State.reset.glb with resetting := some 1 } }
     s.glb.resetting = some 1 ∧ s.pwr.auxV = true ∧ s.pwr.ioV = true ∧ s.pwr.mainV = true ∧ s.pwr.off = false ∧ s.pwr.refclk = true ∧
     s.ctl.modRst = false) ∧
    originReset .pf0 = true ∧ originReset .pf1 = false ∧ (0xA5000002 : W64).extractLsb' 24 8 = 0xA5 ∧ (0xA5000002 : W64).getLsbD 0 = false ∧
    (0xA5000002 : W64).getLsbD 1 = true ∧ (0xA5000010 : W64).extractLsb' 0 2 = 0 ∧ ((0xA5000010 : W64).extractLsb' 4 4).toNat = 2 ^ 0 ∧
    State.reset.glb.dieBusy = 0 ∧ State.reset.glb.revHeld.getLsbD 1 = false ∧ ((dieSt { fenced := true }).die 0).temp.toNat < 95 ∧
    95 ≤ ((dieSt { fenced := true, temp := 95 }).die 0).temp.toNat ∧ (0x8000 : W64).extractLsb' 0 8 = 0 ∧
    ((0x8000 : W64).extractLsb' 8 7).toNat = 0 ∧ (0x8000 : W64).getLsbD 15 = true ∧ ((0xE000 : W64).extractLsb' 8 7).toNat = 96 ∧
    State.reset.glb.tileBusy = none ∧ State.reset.withdrawn 0 = false ∧ State.reset.runKernel 0 = none ∧ (State.reset.tile 0).run = none ∧
    (st [] 0).runKernel 0 = some kern ∧ (0x400000 : W64).getLsbD 15 = false ∧ (0x400000 : W64).getLsbD 22 = true ∧
    State.reset.glb.ctxBusy = none ∧ (treeSt.ctx 0).state ≠ .free ∧ (treeSt.ctx 0).preempt = none ∧
    (∀ k ∈ treeSt.kernels, k.ctx.val = 0 → k.live = 0) ∧ ((preSt 0).ctx 0).preempt ≠ none ∧
    -- a die held for want of training, and one that is not
    (dieSt { fenced := true, held := true, trainHeld := true }).fenced 0 = true ∧
    ((dieSt { fenced := true, held := true, trainHeld := true }).die 0).trainHeld = true ∧
    Sparse.wf {} (dieSt { fenced := true, held := true, trainHeld := true }).dies = true ∧
    (4 ≤ working (failing ⟨[], [], [], [], []⟩ 0) (List.range 16) ∧ State.reset.word 1 &&& State.reset.glb.devFeat = State.reset.glb.devFeat) ∧
    ¬4 ≤ working (List.range 13) (List.range 16) ∧
    -- a context with an enabled arm slot
    (let s := { treeSt with ctxs := [(0, ({ state := .active, arms := [(0, { enable := true })] } : Ctx))] }
     Sparse.wf ({} : Arm) (s.ctx 0).arms = true ∧ Sparse.wf ({} : Ctx) s.ctxs = true ∧ (s.ctx 0).preempt = none ∧ s.glb.ctxBusy = none) := by decide +kernel

/-- CountersWatchdogsAndTelemetry: counters with an event, a service at its third restart, a write that waits for flash, a frozen negative. -/
theorem witness_control :
    originTel .pf0 = true ∧ Sparse.wf {} State.reset.hub.pmc = true ∧ State.reset.serviceDown 0 = false ∧
    ({ State.reset with ctl := { State.reset.ctl with down := 1 } } : State).serviceDown 0 = true ∧
    ({ State.reset.flash with stores := [.nodeId 3] } : Flash).stores = [.nodeId 3] ∧ State.reset.flash.stores = [] ∧
    State.reset.serviceDown 4 = false ∧ (0x200 : W64).getLsbD 9 = true ∧ (0x4200 : W64).getLsbD 14 = true ∧ State.reset.ctl.negFrozen = false ∧
    ({ State.reset.ctl with negFrozen := true } : Ctl).negFrozen = true ∧ ¬((4 = 4 ∨ 4 = 8) ∧ 2 % 4 = 0) ∧ 0xFFFF8 % 8 = 0 := by
  decide +kernel

/-- No die has counters after reset. -/
theorem witness_pmc (d : Nat) : Sparse.wf {} (State.reset.die d).pmc = true := rfl

/-- ManagementMessages: each life-cycle state, with key and certificate and without; lengths at and past their limits. -/
theorem witness_management :
    (∀ lc ∈ [(0 : Nat), 2, 3, 5], let s := { State.reset with fuses := { State.reset.fuses with lcState := lc } }
      s.live = true ∧ s.serviceDown 5 = false ∧ s.serviceDown 6 = false ∧ s.glb.failed = false ∧ s.fuses.lcState = lc) ∧
    State.reset.flash.certPresent = true ∧ State.reset.flash.keyPresent = true ∧
    ({ State.reset.flash with certPresent := false, keyPresent := false } : Flash).keyPresent = false ∧ State.reset.ctl.sigIndex = none ∧
    State.reset.flash.nextBlock < 2 ^ 28 ∧ (List.replicate 4096 (0 : Byte)).length ≤ 4096 ∧ 2 ^ 25 - 4096 + 4096 ≤ 2 ^ 25 ∧
    4096 < (List.replicate 4097 (0 : Byte)).length ∧ ({ State.reset.ctl with modRst := true } : Ctl).modRst = true := by decide +kernel

/-- RecordsCoalesce: a log with a record of the code and unit 99,999 counts and 100,000 counts old. -/
def rasSt (tel : W64) : State := { State.reset with
  hub := { State.reset.hub with tel := tel }
  ras := { State.reset.ras with wrptr := 1, log := [(0, { code := 0x10, unit := 0x10, count := 1 })] } }

theorem witness_coalesce :
    Sparse.wf {} (rasSt 99999).ras.log = true ∧ (Sparse.read {} (rasSt 99999).ras.log 0).code.toNat = 0x10 ∧
    (Sparse.read {} (rasSt 99999).ras.log 0).count ≠ 0 ∧ ((rasSt 99999).hub.tel - (Sparse.read {} (rasSt 99999).ras.log 0).time).toNat < 100000 ∧
    ¬((rasSt 100000).hub.tel - (Sparse.read {} (rasSt 100000).ras.log 0).time).toNat < 100000 := by decide +kernel

/-- R391: 99,999 counts later a CORRECTED record of the same code and unit joins the first; 100,000 counts later it is written. -/
theorem test_coalesce :
    (logRas { cls := .corrected, code := 0x10, unit := 0x10 } (rasSt 99999)).ras.wrptr = 1 ∧
    (Sparse.read {} (logRas { cls := .corrected, code := 0x10, unit := 0x10 } (rasSt 99999)).ras.log 0).count = 2 ∧
    (logRas { cls := .corrected, code := 0x10, unit := 0x10 } (rasSt 100000)).ras.wrptr = 2 := by decide +kernel

/-- TablesKeepTheirForm, FusesOnlyByTheirCommands: a step from the state after reset with a command in front answers a next state. -/
theorem witness_steps :
    (∃ t, step { State.reset with pending := [.fwSvnCommit] } = .next t) ∧ State.reset.fuses.svn ≤ 63 ∧ State.reset.fuses.returns ≤ 3 :=
  ⟨⟨_, rfl⟩, by decide, by decide⟩

theorem witness_canonical : Canonical State.reset where
  hbm := rfl
  host := rfl
  tiles := rfl
  scratch := fun _ => rfl
  dies := rfl
  pmcs := ⟨rfl, fun _ => rfl⟩
  ctxs := rfl
  arms := fun _ => rfl
  sqs := rfl
  cqs := rfl
  windows := rfl
  objects := rfl
  stackRegs := rfl
  quads := rfl
  peers := rfl
  rings := rfl
  dividers := ⟨rfl, rfl⟩
  harts := rfl
  log := rfl

/-- The worked example of the Internet checksum that is widely published (no section of spec/): the header's checksum is 0xB861. -/
theorem test_inetSum :
    inetSum [0x45#8, 0x00#8, 0x00#8, 0x73#8, 0x00#8, 0x00#8, 0x40#8, 0x00#8, 0x40#8, 0x11#8, 0x00#8, 0x00#8,
      0xC0#8, 0xA8#8, 0x00#8, 0x01#8, 0xC0#8, 0xA8#8, 0x00#8, 0xC7#8] = 0xB861 := by decide

/-- The ring of three ranks, this node the first and node 5 the next: a chunk is 256 bytes from 0x1000 to 0x2000. -/
def ringDesc (op : Nat) : List Byte :=
  toBytes op 4 ++ u32 3 ++ u32 0 ++ u32 9 ++ toBytes 256 8 ++ toBytes 0x1000 8 ++ toBytes 0x2000 8 ++ zs 36 ++ [5] ++ zs 3 ++
  u32 0x3000 ++ u32 8 ++ u32 9 ++ zs 4 ++ u32 0x5000 ++ u32 8 ++ u32 9 ++ zs 4 ++ u32 0x6000 ++ u32 8 ++ u32 9 ++ zs 4
def ringColl (op pc : Nat) (w : CollWait) : Coll := ⟨0, 7, 0, 9, ringDesc op, pc, some w, 0, (.ok, 0)⟩
def ringWaits (op pc : Nat) (w : CollWait) : State := { netSt with eng := { netSt.eng with colls := [ringColl op pc w] } }

/-- Its steps: the first and the second of the reducing loop, of the gathering loop behind it, and of ALL_GATHER. -/
def ringSteps : List (Nat × Nat × CollWait × Nat) :=
  [(0x10, 3, .ready 1, 0x1200), (0x11, 6, .data 1, 0x2100), (0x10, 12, .ready 2, 0x2000), (0x10, 15, .data 3, 0x2200),
   (0x12, 3, .ready 1, 0x2000), (0x12, 6, .data 1, 0x2200)]

theorem witness_ring : ∀ e ∈ ringSteps,
    let s := ringWaits e.1 e.2.1 e.2.2.1
    s.live = true ∧ s.coll? 9 = some (ringColl e.1 e.2.1 e.2.2.1) ∧ collWaiting s 9 = false ∧ s.eng.collQ = [] ∧ s.eng.stalled = false ∧
    (advanceColl 9 s).eng.stalled = false ∧ dSched (ringDesc e.1) = 0 ∧ dRanks (ringDesc e.1) = 3 ∧ dRank (ringDesc e.1) = 0 ∧
    dCount (ringDesc e.1) = 256 ∧ dOp (ringDesc e.1) = e.1 ∧ rNode (ringDesc e.1) 1 = 5 ∧
    (engineRead 0 e.2.2.2 256 (s.modColl 9 (fun c => { c with wait := none }))).1.fail = false := by decide +kernel

theorem witness_ring_reached (op pc w) : Reached (ringWaits op pc w) 5 :=
  ⟨by show (3 : BitVec 20) ≠ 0; decide, by show 5 ≠ (3 : BitVec 20).toNat; decide, by decide, rfl, by
    show nlQuads netSt 5 ≠ []; decide +kernel⟩

/-- A collective with node 5 in its table, its request at node 5 unanswered past the last retransmission; and its TIMEOUT. -/
def lostSt (tries : Nat) : State := { reqSt (req (.coll 9) 0x01 tries) with eng := { netSt.eng with colls := [ringColl 0x10 4 (.data 1)] } }

theorem witness_lost_peer :
    (let s := lostSt 8
     s.live = true ∧ Sparse.wf {} s.sqs = true ∧ (s.peer 5).reqs.findIdx? (fun x => x.psn.toNat == 4 && !x.held) = some 0 ∧
     (s.peer 5).reqs[0]? = some (req (.coll 9) 0x01 8) ∧ s.net.retries.toNat ≤ 8 ∧ s.eng.collQ = [] ∧ s.eng.save = none ∧ s.eng.saveQ = [] ∧
     rNode (ringDesc 0x10) 1 = 5 ∧ s.eng.stalled = false ∧ (timeoutOp 5 4 s).eng.stalled = false) ∧
    (let c := ringColl 0x10 3 (.ready 1)
     let s := ringWaits 0x10 3 (.ready 1)
     dTimeout c.desc ≠ 0 ∧ (failColl c (worse c.st (.timeout, 0)) (some 3) s).eng.stalled = false ∧ s.eng.collQ = [] ∧
     Sparse.wf {} s.sqs = true) := by decide +kernel

/-- Node 6, the third rank, is reached there; and node 5, where the request that timed out is sent again. -/
theorem witness_reached : Reached (lostSt 8) 6 ∧ Reached (reqSt (req .none 0x01 7)) 5 :=
  ⟨⟨by show (3 : BitVec 20) ≠ 0; decide, by show 6 ≠ (3 : BitVec 20).toNat; decide, by decide, rfl, by decide +kernel⟩,
    ⟨by show (3 : BitVec 20) ≠ 0; decide, by show 5 ≠ (3 : BitVec 20).toNat; decide, by decide, rfl, by decide +kernel⟩⟩

/-- ContextsComeAndGo and HostLink: a queue of Zoilo's for context 63 in MANUFACTURE, for another in DEPLOYED; a module not ready. -/
def zoiloSt (c : Nat) (lc : Nat) : State :=
  { State.reset with sqs := [(0, { sq 0 none with byZoilo := true, started := [⟨7, img 0x70 1 [(3, [BitVec.ofNat 8 c])], 0, .started⟩] })]
                     fuses := { State.reset.fuses with lcState := lc } }

theorem witness_zoilo :
    (∀ e ∈ [(63, 1), (63, 4), (5, 1), (63, 3)], let s := zoiloSt e.1 e.2
      (s.sq 0).byZoilo = true ∧ drvTurn 0 7 s = true ∧ Sparse.wf {} s.sqs = true ∧ s.live = true ∧
      ∃ c, startedCmd s 0 7 = some c ∧ leAt c.bytes 0 1 = 0x70 ∧ c.ctx = e.1 ∧ (s.ctx c.ctx).state = .free ∧
        s.fuses.lcState = e.2) ∧
    (let s := { State.reset with glb := { State.reset.glb with ready := false } }
     s.linkRuns = true ∧ s.pcie.linkUp = true ∧ s.glb.ready = false) ∧ State.reset.linkRuns = true ∧ State.reset.powered = true ∧
    (inputs false false false).powered = false := by
  refine ⟨fun e he => ?_, by decide +kernel, by decide +kernel, by decide +kernel, by decide +kernel⟩
  simp only [List.mem_cons, List.not_mem_nil, or_false] at he
  rcases he with rfl | rfl | rfl | rfl <;> exact ⟨by decide, by decide, by decide, by decide, _, rfl, by decide, by decide, by decide, rfl⟩

/-! ### Services, the boot ROM, boundary scan -/

def ctlSt (c : Ctl) : State := { State.reset with ctl := c }

/-- Z2 at work, held down, and stalled with L_CAP forced; Z3 and Z6 held down; Z7 held down. -/
theorem witness_services :
    State.reset.z2Still = false ∧ (ctlSt { State.reset.ctl with down := 4 }).z2Still = true ∧
    (let s := { State.reset with pwr := { State.reset.pwr with lcapForced := true } }
     s.z2Still = true ∧ s.live = true ∧ s.serviceDown 2 = false) ∧
    (∀ z ∈ [3, 6, 7], let s := ctlSt { State.reset.ctl with down := BitVec.ofNat 8 (2 ^ z) }
      s.serviceDown z = true ∧ s.serviceDown 5 = false ∧ s.serviceDown 0 = false ∧ s.live = true) ∧
    (ctlSt { State.reset.ctl with down := 0x20 }).serviceDown 5 = true ∧
    (ctlSt { State.reset.ctl with noImage := true }).ctl.noImage = true ∧
    -- restarts of Z0 and Z1 in the last second
    ((({ State.reset.ctl with restarts := [(0, 0), (1, 0)] } : Ctl).restarts.filter (fun e =>
      (e.1 == 0 || (decide (e.1 < 2) && decide (0 < 2))) && decide ((State.reset.hub.tel - e.2).toNat < 100000000))).length = 2) := by decide +kernel

/-- A route to a page that no source may write; the end of a second of telemetry and its middle; a wide register with its lower half
held, of PF0 and of PF1. -/
theorem witness_stray :
    (let s := { State.reset with ras := { State.reset.ras with route := [(RasClass.degraded.code, { imsicen := true, file := 1 })] } }
     strayRoute RasClass.degraded.code s = some 1) ∧ strayRoute RasClass.degraded.code State.reset = none ∧
    (∀ n ∈ [0, 998, 999], (ctlSt { State.reset.ctl with telFill := n }).ctl.telFill = n) ∧
    (∀ s ∈ [State.reset, { State.reset with glb := { State.reset.glb with held := [(0x200010, 7)] } }],
      regOf s .pf0 0x200010 = some (.pwrCap, 0x200010) ∧ RegId.pwrCap.wide = true ∧ regMay .pf0 s .pwrCap = true ∧ s.live = true) := by
  decide +kernel

/-- ManagementMessages: a request that stands, the last index of a block and its first, the last block; life cycles and lengths. -/
theorem witness_messages :
    (∀ cmd ∈ [0x03, 0x11], let s := ctlSt { State.reset.ctl with msgs := [(cmd, State.reset.hub.tel)] }
      msgStands cmd s = true ∧ s.live = true ∧ s.serviceDown 5 = false) ∧
    (∀ cmd ∈ [0x01, 0x03, 0x10, 0x11], msgStands cmd State.reset = false) ∧ msgStands 0x03 (ctlSt { State.reset.ctl with noImage := true }) = false ∧
    (∀ i ∈ [4095, 4096], ({ State.reset.ctl with sigIndex := some i } : Ctl).sigIndex = some i) ∧
    ({ State.reset.flash with nextBlock := 2 ^ 28 - 2 } : Flash).nextBlock + 1 < 2 ^ 28 ∧ 2 ^ 28 ≤ ({ State.reset.flash with nextBlock := 2 ^ 28 } : Flash).nextBlock ∧
    (zs 32).length = 32 ∧ (zs 16384).length ≤ 16384 ∧ 16384 < (zs 16385).length ∧
    State.reset.pcie.linkUp = true ∧ State.reset.fuses.lcState ≠ 5 ∧ State.reset.pwr.auxV = true ∧ 0x3800 ≤ 0x3FFF ∧ 0x3FFF + 1 ≤ 0x4000 ∧
    State.reset.lcService = false ∧ testSt.lcService = true := by decide +kernel

/-- Contacts under EXTEST, CLAMP and HIGHZ; PLLs of a module held in reset with the link down; a warm reset that is due; Z3 held down. -/
theorem witness_pins :
    (∀ t ∈ [JtagInstr.extest, .clamp, .highz, .bypass], (ctlSt { State.reset.ctl with modRst := true, tap := t }).ctl.modRst = true) ∧
    (∀ up ∈ [true, false], let s := { State.reset with glb := { State.reset.glb with resetting := some 1 }, pcie := { State.reset.pcie with linkUp := up } }
      s.live = false ∧ s.powered = true ∧ s.pcie.linkUp = up) ∧
    (let s := { State.reset with glb := { State.reset.glb with warmDue := true } }
     s.live = true ∧ s.glb.warmDue = true) ∧ State.reset.sync.returns = [] ∧ State.reset.glb.warmDue = false := by decide +kernel

end Sys2Proof.Tests
end

section
/-! The tiles and the kernels under the writes to memory that draining a merging buffer makes (R143, R204, R248, R302). -/

namespace Sys2Proof.Machine

/-- Neither a tile nor a kernel differs between two states. -/
structure TilesKept (s t : State) : Prop where
  tiles   : t.tiles = s.tiles
  kernels : t.kernels = s.kernels

theorem TilesKept.refl (s : State) : TilesKept s s := ⟨rfl, rfl⟩

theorem TilesKept.trans {s t u : State} (h : TilesKept s t) (h' : TilesKept t u) : TilesKept s u :=
  ⟨h'.tiles.trans h.tiles, h'.kernels.trans h.kernels⟩

theorem TilesKept.tile {s t : State} (h : TilesKept s t) (u : Nat) : t.tile u = s.tile u := by
  simp only [State.tile, h.tiles]

theorem TilesKept.kernel? {s t : State} (h : TilesKept s t) (kid : Nat) : t.kernel? kid = s.kernel? kid := by
  simp only [State.kernel?, h.kernels]

theorem LogOnly.tilesKept {s t : State} (h : LogOnly s t) : TilesKept s t := by
  unfold LogOnly at h
  rw [h]
  exact ⟨rfl, rfl⟩

theorem logRas_tilesKept (r : RasNew) (s : State) : TilesKept s (logRas r s) := (logRas_logOnly r s).tilesKept

theorem logBandBusy_tilesKept (r : Requester) (write : Bool) (pa : Nat) (s : State) :
    TilesKept s (logBandBusy r write pa s) := logRas_tilesKept _ s

theorem logPcAccess_tilesKept (r : Requester) (st a : Nat) (s : State) : TilesKept s (logPcAccess r st a s) :=
  logRas_tilesKept _ s

theorem logDieAccess_tilesKept (r : Requester) (pa : Nat) (s : State) : TilesKept s (logDieAccess r pa s) :=
  logRas_tilesKept _ s

theorem logHostDrop_tilesKept (a n : Nat) (s : State) : TilesKept s (logHostDrop a n s) := logRas_tilesKept _ s

theorem TilesKept.forEach {f : α → State → State} (hf : ∀ a s, TilesKept s (f a s)) (l : List α) (s : State) :
    TilesKept s (forEach l f s) := by
  induction l generalizing s with
  | nil => exact .refl s
  | cons a l ih => exact (hf a s).trans (ih (f a s))

/-- A choice between two states that keep the tiles. -/
theorem TilesKept.ite {s t u : State} {b : Prop} [Decidable b] (ht : TilesKept s t) (hu : TilesKept s u) :
    TilesKept s (if b then t else u) := by
  split
  · exact ht
  · exact hu

/-! ### HBM at its home -/

theorem pmcAdd_tilesKept (x ev n : Nat) (s : State) : TilesKept s (pmcAdd x ev n s) := by
  unfold pmcAdd
  exact .ite (.ite (.refl s) ⟨rfl, rfl⟩) ⟨rfl, rfl⟩

theorem ncTouch_tilesKept (d : Nat) (cls : NcClass) (write whole : Bool) (pa : Nat) (s : State) :
    TilesKept s (ncTouch d cls write whole pa s) := by
  unfold ncTouch
  dsimp only
  refine .trans ?_ (pmcAdd_tilesKept _ _ _ _)
  exact .ite ⟨rfl, rfl⟩ ⟨rfl, rfl⟩

theorem hbmStore_tilesKept (pa : Nat) (data : List PB) (s : State) : TilesKept s (hbmStore pa data s) := ⟨rfl, rfl⟩

theorem hbmRead_tilesKept (r : Requester) (cls : NcClass) (pa n : Nat) (s : State) : TilesKept s (hbmRead r cls pa n s).2 := by
  unfold hbmRead
  dsimp only
  split
  case h_1 => exact .refl s
  case h_2 => exact .refl s
  case h_3 => exact ⟨rfl, rfl⟩
  case h_4 => exact logPcAccess_tilesKept _ _ _ s
  case h_5 => exact logBandBusy_tilesKept _ _ _ s
  case h_6 =>
    refine .trans ?_ (ncTouch_tilesKept _ _ _ _ _ _)
    exact .ite ⟨rfl, rfl⟩ (.refl s)

theorem hbmWriteRuns_tilesKept (r : Requester) (cls : NcClass) (runs : List (Nat × List PB)) (s : State) :
    TilesKept s (hbmWriteRuns r cls runs s).2 := by
  unfold hbmWriteRuns
  split
  · exact .refl s
  · dsimp only
    split
    case h_1 => exact .refl s
    case h_2 => exact .refl s
    case h_3 => exact ⟨rfl, rfl⟩
    case h_4 => exact logPcAccess_tilesKept _ _ _ s
    case h_5 => exact logBandBusy_tilesKept _ _ _ s
    case h_6 =>
      refine .trans ?_ (ncTouch_tilesKept _ _ _ _ _ _)
      apply TilesKept.forEach
      exact fun e => hbmStore_tilesKept e.1 e.2

/-! ### Blocks that a running save protects -/

theorem readPieces_tilesKept {rd : Nat → Nat → State → ReadRes × State} (hrd : ∀ a n s, TilesKept s (rd a n s).2)
    (ps : List (Nat × Nat)) (s : State) : TilesKept s (readPieces rd ps s).2 := by
  suffices h : ∀ acc : ReadRes × State, TilesKept s acc.2 → TilesKept s (ps.foldl (fun (acc : ReadRes × State) p =>
      let r := rd p.1 p.2 acc.2
      (⟨acc.1.data ++ r.1.data, acc.1.met.and r.1.met⟩, r.2)) acc).2 from h _ (.refl s)
  induction ps with
  | nil => exact fun acc hacc => hacc
  | cons p ps ih => exact fun acc hacc => ih _ (hacc.trans (hrd _ _ _))

theorem ckptReadBlock_tilesKept (b : Nat) (ahead : Bool) (s : State) : TilesKept s (ckptReadBlock b ahead s) := by
  unfold ckptReadBlock
  split
  · exact .refl s
  · split
    · exact .refl s
    · next ps _ =>
      have h := readPieces_tilesKept (hbmRead_tilesKept .hub .streaming) (ps.flatMap (fun pa => unitPieces pa 4096)) s
      exact ⟨h.tiles, h.kernels⟩

theorem copyAheadN_tilesKept (pa n : Nat) (s : State) : TilesKept s (copyAheadN pa n s) := by
  induction n generalizing s with
  | zero => exact .refl s
  | succ n ih =>
    unfold copyAheadN
    split
    · split
      · next b _ => exact (ckptReadBlock_tilesKept b true s).trans (ih _)
      · exact .refl s
    · exact .refl s

theorem copyAhead_tilesKept (pa : Nat) (s : State) : TilesKept s (copyAhead pa s) := copyAheadN_tilesKept pa _ s

theorem restoreMet_tilesKept (pa n : Nat) (s : State) : TilesKept s (restoreMet pa n s) := by
  unfold restoreMet
  exact .ite ⟨rfl, rfl⟩ (.refl s)

theorem poolWriteRuns_tilesKept (r : Requester) (cls : NcClass) (runs : List (Nat × List PB)) (s : State) :
    TilesKept s (poolWriteRuns r cls runs s).2 := by
  unfold poolWriteRuns
  split
  · exact .refl s
  · split
    · exact ⟨rfl, rfl⟩
    · next pa d l _ =>
      have hw := (copyAhead_tilesKept pa s).trans (hbmWriteRuns_tilesKept r cls ((pa, d) :: l) _)
      refine hw.trans ?_
      apply TilesKept.forEach
      exact fun e => restoreMet_tilesKept e.1 e.2.length

/-! ### Core copies and the host-line cache -/

theorem writeBack_tilesKept (k : Option Nat) (line : Nat) (c : CLine) (s : State) : TilesKept s (writeBack k line c s) := by
  unfold writeBack
  have h := poolWriteRuns_tilesKept (coreReq k) .allocating [(64 * line, c.pb)] s
  split
  · exact .ite h (h.trans (logDieAccess_tilesKept _ _ _))
  · exact ⟨rfl, rfl⟩
  · exact .refl s

theorem snoopWriteLine_tilesKept (line : Nat) (s : State) : TilesKept s (snoopWriteLine line s) := by
  unfold snoopWriteLine
  split
  · next k c _ => exact (writeBack_tilesKept k line c s).trans ⟨rfl, rfl⟩
  · exact ⟨rfl, rfl⟩

theorem snoopWrite_tilesKept (u : Nat) (s : State) : TilesKept s (snoopWrite u s) :=
  (pmcAdd_tilesKept 0 1 1 s).trans (.forEach snoopWriteLine_tilesKept _ _)

theorem evictHostLine_tilesKept (line : Nat) (s : State) : TilesKept s (evictHostLine line s) := by
  unfold evictHostLine
  have h := snoopWriteLine_tilesKept line s
  dsimp only
  split
  · exact h
  · split <;> exact ⟨h.tiles, h.kernels⟩

theorem putHostLine_tilesKept (line : Nat) (x : HLine) (s : State) : TilesKept s (putHostLine line x s) := by
  unfold putHostLine
  dsimp only
  split
  · split
    · next e _ => exact (evictHostLine_tilesKept e.1 s).trans ⟨rfl, rfl⟩
    · exact ⟨rfl, rfl⟩
  · exact ⟨rfl, rfl⟩

theorem ownRequest_tilesKept (line : Nat) (whole : Bool) (s : State) : TilesKept s (ownRequest line whole s) := by
  unfold ownRequest
  split
  · exact ⟨rfl, rfl⟩
  · exact .ite ⟨rfl, rfl⟩ (.refl s)

/-! ### Host memory -/

theorem cohHostStore_tilesKept (a : Nat) (data : List PB) (s : State) : TilesKept s (cohHostStore a data s) :=
  ((snoopWriteLine_tilesKept _ s).trans (ownRequest_tilesKept _ _ _)).trans (putHostLine_tilesKept _ _ _)

theorem hostStore_tilesKept (fn : Nat) (bulk coh : Bool) (a : Nat) (data : List PB) (s : State) :
    TilesKept s (hostStore fn bulk coh a data s) := by
  unfold hostStore
  split
  · apply TilesKept.forEach
    exact fun p => cohHostStore_tilesKept p.1 _
  · refine TilesKept.trans (t := { s with hostMem := Mem.setBytes s.hostMem a (plain data) }) ⟨rfl, rfl⟩ ?_
    apply TilesKept.forEach
    exact fun p s => ⟨rfl, rfl⟩

theorem hostWriteRuns_tilesKept (fn : Nat) (bulk coh : Bool) (runs : List (Nat × List PB)) (s : State) :
    TilesKept s (hostWriteRuns fn bulk coh runs s).2 := by
  unfold hostWriteRuns
  split
  · exact .refl s
  · split
    · exact logHostDrop_tilesKept _ _ s
    · apply TilesKept.forEach
      exact fun e => hostStore_tilesKept fn bulk coh e.1 e.2

end Sys2Proof.Machine
end

section
/-! A tile that runs a kernel: what its run, groups and threads read as after each named update, in any table of tiles (a tile that runs
differs from the unlisted one). -/

namespace Sys2Proof.Machine

/-! ### The run of a tile -/

theorem State.setTile_tile_of_run {s : State} {t : Nat} {x : Tile} {r : Run} (h : x.run = some r) : (s.setTile t x).tile t = x := by
  have hx : x ≠ {} := by
    rintro rfl
    cases h
  simp only [State.setTile, State.tile, Sparse.write, Sparse.read, if_neg hx, Sparse.find?_insert_self, Option.getD_some]

theorem State.modTile_tile_of_run {s : State} {t : Nat} {f : Tile → Tile} {r : Run} (h : (f (s.tile t)).run = some r) :
    (s.modTile t f).tile t = f (s.tile t) := State.setTile_tile_of_run h

theorem State.modTile_tile_other (s : State) {t u : Nat} (f : Tile → Tile) (h : u ≠ t) : (s.modTile t f).tile u = s.tile u :=
  State.setTile_tile_other s _ h

theorem State.modRun_tile_self {s : State} {t : Nat} {r : Run} (f : Run → Run) (h : (s.tile t).run = some r) :
    (s.modRun t f).tile t = { s.tile t with run := some (f r) } := by
  have hf : ((s.tile t).run.map f) = some (f r) := by rw [h, Option.map_some]
  unfold State.modRun
  rw [State.modTile_tile_of_run (r := f r) hf, hf]

theorem State.modRun_tile_other (s : State) {t u : Nat} (f : Run → Run) (h : u ≠ t) : (s.modRun t f).tile u = s.tile u :=
  State.modTile_tile_other s _ h

theorem State.group?_of_run {s : State} {t : Nat} {r : Run} (h : (s.tile t).run = some r) (g : Nat) :
    s.group? t g = r.groups.find? (fun x => x.num == g) := by
  simp [State.group?, h]

theorem State.thread?_of_group {s : State} {t g : Nat} {x : Group} (h : s.group? t g = some x) (l : Nat) :
    s.thread? t g l = x.threads[l]? := by
  simp [State.thread?, h]

theorem State.issues_of_run {s : State} {t : Nat} {r : Run} (h : (s.tile t).run = some r) : s.issues t = !r.stopped := by
  simp [State.issues, h]

theorem State.runKernel_of_run {s : State} {t : Nat} {r : Run} (h : (s.tile t).run = some r) : s.runKernel t = s.kernel? r.kid := by
  simp [State.runKernel, h]

theorem State.kernel?_kid {s : State} {kid : Nat} {k : Kernel} (h : s.kernel? kid = some k) : k.kid = kid := by
  simpa using List.find?_some h

/-- A change of kernels' records that keeps their identities reaches the kernel named and leaves the others. -/
theorem State.kernel?_modKernel (s : State) (kid n : Nat) {f : Kernel → Kernel} (hf : ∀ k, (f k).kid = k.kid) :
    (s.modKernel kid f).kernel? n = (s.kernel? n).map (fun k => if k.kid = kid then f k else k) := by
  have hp : ((fun k : Kernel => k.kid == n) ∘ fun k => if k.kid = kid then f k else k) = fun k => k.kid == n := by
    funext k
    simp only [Function.comp_apply]
    split
    · rw [hf]
    · rfl
  simp only [State.kernel?, State.modKernel, List.find?_map, hp]

/-! ### Threads of a group -/

/-- The group of a number, after a change of the groups of a number. -/
theorem Run.modGroup_find? (r : Run) (g n : Nat) {f : Group → Group} (hf : ∀ x, (f x).num = x.num) :
    (r.modGroup g f).groups.find? (fun x => x.num == n) =
      (r.groups.find? (fun x => x.num == n)).map (fun x => if x.num = g then f x else x) := by
  have hp : ((fun x : Group => x.num == n) ∘ fun x => if x.num = g then f x else x) = fun x => x.num == n := by
    funext x
    simp only [Function.comp_apply]
    split
    · rw [hf]
    · rfl
  simp only [Run.modGroup, List.find?_map, hp]

/-- From one state to the next only threads of one group of a tile that runs may differ. -/
structure LanesOnly (t g : Nat) (s s' : State) : Prop where
  frame  : s' = { s with tiles := s'.tiles }
  tiles  : ∀ u, u ≠ t → s'.tile u = s.tile u
  run    : ∀ r, (s.tile t).run = some r → ∃ gs, s'.tile t = { s.tile t with run := some { r with groups := gs } }
  groups : ∀ r, (s.tile t).run = some r → ∀ n, n ≠ g → s'.group? t n = s.group? t n

theorem LanesOnly.refl (t g : Nat) (s : State) : LanesOnly t g s s :=
  ⟨rfl, fun _ _ => rfl, fun r hr => ⟨r.groups, by rw [← hr]⟩, fun _ _ _ _ => rfl⟩

theorem LanesOnly.trans {t g : Nat} {s s' s'' : State} (h : LanesOnly t g s s') (h' : LanesOnly t g s' s'') : LanesOnly t g s s'' where
  frame := by
    have hf := h'.frame
    rw [h.frame] at hf
    exact hf
  tiles u hu := (h'.tiles u hu).trans (h.tiles u hu)
  run r hr := by
    obtain ⟨gs, hgs⟩ := h.run r hr
    obtain ⟨gs', hgs'⟩ := h'.run { r with groups := gs } (by rw [hgs])
    exact ⟨gs', by rw [hgs', hgs]⟩
  groups r hr n hn := by
    obtain ⟨gs, hgs⟩ := h.run r hr
    exact (h'.groups { r with groups := gs } (by rw [hgs]) n hn).trans (h.groups r hr n hn)

theorem LanesOnly.kernel? {t g : Nat} {s s' : State} (h : LanesOnly t g s s') (kid : Nat) : s'.kernel? kid = s.kernel? kid := by
  rw [h.frame]
  rfl

section
variable {s : State} {t g : Nat} {r : Run} (hr : (s.tile t).run = some r)
include hr

theorem State.modThread_group? (l n : Nat) (f : Thread → Thread) :
    (s.modThread t g l f).group? t n = (s.group? t n).map (fun x => if x.num = g then x.modThread l f else x) := by
  have hr' : ((s.modThread t g l f).tile t).run = some (r.modGroup g (fun x => x.modThread l f)) := by
    unfold State.modThread
    rw [State.modRun_tile_self _ hr]
  rw [State.group?_of_run hr', State.group?_of_run hr, Run.modGroup_find? r g n (f := fun x => x.modThread l f) (fun _ => rfl)]

theorem State.modThread_group?_other {n : Nat} (l : Nat) (f : Thread → Thread) (h : n ≠ g) :
    (s.modThread t g l f).group? t n = s.group? t n := by
  rw [State.modThread_group? hr]
  cases hx : s.group? t n with
  | none => rfl
  | some x =>
    rw [State.group?_of_run hr] at hx
    have hn : x.num = n := by simpa using List.find?_some hx
    simp [hn, h]

theorem State.modThread_thread? (l j : Nat) (f : Thread → Thread) :
    (s.modThread t g l f).thread? t g j = if j = l then (s.thread? t g j).map f else s.thread? t g j := by
  unfold State.thread?
  rw [State.modThread_group? hr]
  cases hx : s.group? t g with
  | none => simp
  | some x =>
    rw [State.group?_of_run hr] at hx
    have hn : x.num = g := by simpa using List.find?_some hx
    simp only [Option.map_some, hn, if_true, Group.modThread, List.getElem?_modify]
    by_cases hj : j = l
    · simp [hj]
    · simp [hj, Ne.symm hj]

end

theorem State.modThread_lanesOnly (s : State) (t g l : Nat) (f : Thread → Thread) : LanesOnly t g s (s.modThread t g l f) where
  frame := rfl
  tiles _ hu := State.modRun_tile_other s _ hu
  run _ hr := ⟨_, State.modRun_tile_self _ hr⟩
  groups _ hr _ hn := State.modThread_group?_other hr l f hn

theorem mapLanes_lanesOnly (t g : Nat) (l : List Nat) (f : Nat → Thread → Thread) (s : State) :
    LanesOnly t g s (mapLanes t g l f s) := by
  induction l generalizing s with
  | nil => exact .refl t g s
  | cons x xs ih => exact (s.modThread_lanesOnly t g x (f x)).trans (ih _)

/-- The named lanes change, each once; the others stay. -/
theorem mapLanes_thread? {s : State} {t g : Nat} {r : Run} (hr : (s.tile t).run = some r) {l : List Nat} (hl : l.Nodup)
    (f : Nat → Thread → Thread) (j : Nat) :
    (mapLanes t g l f s).thread? t g j = if j ∈ l then (s.thread? t g j).map (f j) else s.thread? t g j := by
  induction l generalizing s r with
  | nil => simp [mapLanes]
  | cons x xs ih =>
    obtain ⟨hx, hxs⟩ := List.nodup_cons.mp hl
    obtain ⟨gs, hgs⟩ := (s.modThread_lanesOnly t g x (f x)).run r hr
    have h := ih (s := s.modThread t g x (f x)) (r := { r with groups := gs }) (by rw [hgs]) hxs
    rw [State.modThread_thread? hr] at h
    refine h.trans ?_
    by_cases hj : j = x
    · subst hj
      simp [hx]
    · simp [hj]

end Sys2Proof.Machine
end

section
/-! An abort that an instruction raises on its tile (R140): the kernel has aborted and the tile has stopped, whatever the merging buffer
drains to. -/

namespace Sys2Proof.Machine

/-! ### Draining -/

/-- The run of a tile that runs, and the kernels, are the same in two states. -/
structure RunKept (t : Nat) (s s' : State) : Prop where
  run     : ∀ r, (s.tile t).run = some r → (s'.tile t).run = some r
  kernels : s'.kernels = s.kernels

theorem RunKept.refl (t : Nat) (s : State) : RunKept t s s := ⟨fun _ h => h, rfl⟩

theorem RunKept.trans {t : Nat} {s s' s'' : State} (h : RunKept t s s') (h' : RunKept t s' s'') : RunKept t s s'' :=
  ⟨fun r hr => h'.run r (h.run r hr), h'.kernels.trans h.kernels⟩

theorem TilesKept.runKept {s s' : State} (h : TilesKept s s') (t : Nat) : RunKept t s s' :=
  ⟨fun r hr => by rw [h.tile]; exact hr, h.kernels⟩

/-- A change of any tile that leaves its run. -/
theorem modTile_runKept (t u : Nat) {f : Tile → Tile} (hf : ∀ x, (f x).run = x.run) (s : State) : RunKept t s (s.modTile u f) := by
  refine ⟨fun r hr => ?_, rfl⟩
  by_cases hu : t = u
  · subst hu
    have h : (f (s.tile t)).run = some r := (hf _).trans hr
    rw [State.modTile_tile_of_run h, h]
  · rw [State.modTile_tile_other s f hu, hr]

theorem Tile.spadStore_run (x : Tile) (off : Nat) (data : List PB) : (x.spadStore off data).run = x.run := by
  unfold Tile.spadStore Tile.spadPut
  split <;> rfl

theorem spadWrite_runKept (t : Nat) (r : Requester) (u off : Nat) (data : List PB) (s : State) :
    RunKept t s (spadWrite r u off data s).2 := by
  unfold spadWrite
  split
  · exact .refl t s
  · split
    · exact .refl t s
    · exact modTile_runKept t u (fun x => x.spadStore_run off data) s

theorem writeRuns_runKept (t : Nat) (p : Port) (runs : List (Nat × List PB)) (s : State) : RunKept t s (writeRuns p runs s).2 := by
  unfold writeRuns
  split
  · exact .refl t s
  · next pa data l =>
    split
    · have hs : TilesKept s (if p.coh then snoopWrite (pa / 256) s else s) := .ite (snoopWrite_tilesKept _ s) (.refl s)
      have hw := hs.trans (poolWriteRuns_tilesKept p.req p.cls ((pa, data) :: l) _)
      refine (hw.trans ?_).runKept t
      exact .ite ⟨rfl, rfl⟩ (.refl _)
    · exact (hostWriteRuns_tilesKept _ _ _ _ s).runKept t
    · exact spadWrite_runKept t _ _ _ data s
    · exact (logReg_logOnly _ _ s).tilesKept.runKept t
    · exact .refl t s

/-- What is drained may add to a kernel's record, never to how it ended. -/
theorem noteDrops_kernel? (t : Nat) (m : Met) (s : State) {kid : Nat} {k : Kernel} (h : s.kernel? kid = some k) :
    ∃ k', (noteDrops t m s).kernel? kid = some k' ∧ k'.todo = k.todo ∧ k'.abort = k.abort := by
  unfold noteDrops
  split
  · split
    · refine ⟨_, (State.kernel?_modKernel s _ kid (by intro; rfl)).trans (by rw [h, Option.map_some]), ?_⟩
      split <;> exact ⟨rfl, rfl⟩
    · exact ⟨k, h, rfl, rfl⟩
  · exact ⟨k, h, rfl, rfl⟩

theorem noteDrops_tile (t u : Nat) (m : Met) (s : State) : (noteDrops t m s).tile u = s.tile u := by
  unfold noteDrops
  split
  · split <;> rfl
  · rfl

/-- Entries drained one after another, before what they met is noted. -/
theorem drainFold_runKept (t : Nat) (p : State → MergeEntry → Bool) (l : List MergeEntry) (acc : Met × State × List MergeEntry) :
    RunKept t acc.2.1 (l.foldl (fun (acc : Met × State × List MergeEntry) e =>
      if p acc.2.1 e then
        let w := drainEntry t e acc.2.1
        (acc.1.and w.1, w.2, acc.2.2)
      else (acc.1, acc.2.1, acc.2.2 ++ [e])) acc).2.1 := by
  induction l generalizing acc with
  | nil => exact .refl t _
  | cons e l ih =>
    refine RunKept.trans ?_ (ih _)
    dsimp only
    split
    · exact writeRuns_runKept t _ _ _
    · exact .refl t _

/-- Draining keeps the tile's run, and how its kernels ended. -/
theorem drainThose_run (p : State → MergeEntry → Bool) {t : Nat} {s : State} {r : Run} (h : (s.tile t).run = some r) :
    (((drainThose p t s).2).tile t).run = some r := by
  have hf := drainFold_runKept t p (s.tile t).merge ({}, s, [])
  unfold drainThose
  rw [noteDrops_tile]
  exact (modTile_runKept t t (by intro; rfl) _).run r (hf.run r h)

theorem drainThose_kernel? (p : State → MergeEntry → Bool) (t : Nat) {s : State} {kid : Nat} {k : Kernel}
    (h : s.kernel? kid = some k) :
    ∃ k', ((drainThose p t s).2).kernel? kid = some k' ∧ k'.todo = k.todo ∧ k'.abort = k.abort := by
  have hf := drainFold_runKept t p (s.tile t).merge ({}, s, [])
  refine noteDrops_kernel? t _ _ ?_
  unfold State.kernel? at h ⊢
  rw [State.modTile_kernels, hf.kernels]
  exact h

/-! ### The abort -/

theorem dropTileWaits_runKept (t : Nat) (s : State) : RunKept t s (dropTileWaits t s) := by
  have h : RunKept t s (s.modTile t (fun x => { x with waits := [] })) := modTile_runKept t t (by intro; rfl) s
  exact ⟨h.run, h.kernels⟩

section
variable {t : Nat} {s : State} {r : Run} (hr : (s.tile t).run = some r)
include hr

theorem stopTile_run (hgo : r.stopped = false) : ((stopTile t s).tile t).run = some { r with stopped := true } := by
  unfold stopTile
  simp only [hr, hgo]
  refine drainThose_run _ ((dropTileWaits_runKept t _).run _ ?_)
  rw [State.modTile_tile_of_run (r := { r with stopped := true }) (by simp [hr])]
  simp [hr]

theorem stopTile_kernel? {kid : Nat} {k : Kernel} (hgo : r.stopped = false) (hk : s.kernel? kid = some k) :
    ∃ k', (stopTile t s).kernel? kid = some k' ∧ k'.todo = k.todo ∧ k'.abort = k.abort := by
  unfold stopTile
  simp only [hr, hgo]
  exact drainThose_kernel? _ t hk

end

/-- A tile that runs reads as its changed value where every listed tile is changed and its run stays. -/
theorem mapVals_tile_run {f : Tile → Tile} (hf : ∀ x, (f x).run = x.run) (m : Sparse Tile) {t : Nat} {r : Run}
    (h : (Sparse.read {} m t).run = some r) : (Sparse.read {} (Sparse.mapVals {} m f) t).run = some r := by
  induction m with
  | nil => cases h
  | cons e m ih =>
    obtain ⟨j, x⟩ := e
    by_cases hj : j = t
    · subst hj
      have hx : x.run = some r := by simpa [Sparse.read, Sparse.find?] using h
      have hfx : f x ≠ {} := by
        intro he
        have := hf x
        rw [he, hx] at this
        cases this
      have hm : Sparse.mapVals {} ((j, x) :: m) f = (j, f x) :: Sparse.mapVals {} m f := by
        simp only [Sparse.mapVals, List.filterMap_cons, if_neg hfx]
      rw [hm]
      simp [Sparse.read, Sparse.find?, hf, hx]
    · have hm : Sparse.read {} ((j, x) :: m) t = Sparse.read {} m t := by simp [Sparse.read, Sparse.find?, hj]
      rw [hm] at h
      refine Eq.trans ?_ (ih h)
      by_cases hfx : f x = {}
      · simp only [Sparse.mapVals, List.filterMap_cons, if_pos hfx]
      · simp only [Sparse.mapVals, List.filterMap_cons, if_neg hfx, Sparse.read, Sparse.find?, if_neg hj]

theorem markAbort_run {t : Nat} {s : State} {r : Run} (kid : Nat) (st : Status) (detail : Nat) (h : (s.tile t).run = some r) :
    ((markAbort kid st detail s).tile t).run = some r :=
  mapVals_tile_run (f := fun x => { x with waiting := x.waiting.filter (· != kid) }) (fun _ => rfl) s.tiles h

theorem markAbort_kernel? {s : State} {kid : Nat} {k : Kernel} (st : Status) (detail : Nat) (h : s.kernel? kid = some k) :
    (markAbort kid st detail s).kernel? kid =
      some { k with abort := (match k.abort with | some a => some a | none => some (st, detail)), todo := 0 } := by
  have hm := State.kernel?_modKernel s kid kid (f := fun k =>
    { k with abort := (match k.abort with | some a => some a | none => some (st, detail)), todo := 0 }) (fun _ => rfl)
  rw [h, Option.map_some, if_pos (State.kernel?_kid h)] at hm
  exact hm

/-- The record of an abort is only logged. -/
theorem logAbort_logOnly (k : Kernel) (unit x pc : Nat) (st : Status) (code : Nat) (s : State) :
    LogOnly s (logKernelAbort k unit pc st code (abortRecord x k pc st s)) :=
  (trace_logOnly _ _ _ s).trans (logRas_logOnly _ _)

section
variable {t : Nat} {s : State} {r : Run} {k : Kernel} (hr : (s.tile t).run = some r) (hk : s.kernel? r.kid = some k)
  (hgo : r.stopped = false) (st : Status) (detail pc code : Nat)
include hr hk hgo

theorem abortOnTile_run : ((abortOnTile t st detail pc code s).tile t).run = some { r with stopped := true } := by
  have hl := (logAbort_logOnly k (unitTile t) (1 + dieOfTile t) pc st code s).tilesKept
  unfold abortOnTile
  simp only [State.runKernel_of_run hr, hk]
  exact stopTile_run (markAbort_run _ _ _ (by rw [hl.tile, hr])) hgo

/-- An abort raised by an instruction of a tile that issues: recorded in its kernel, and the tile stopped (R140). -/
theorem abortOnTile_abortedOn : AbortedOn (abortOnTile t st detail pc code s) t k st detail := by
  refine ⟨?_, by rw [State.issues_of_run (abortOnTile_run hr hk hgo st detail pc code)]; rfl⟩
  have hl := (logAbort_logOnly k (unitTile t) (1 + dieOfTile t) pc st code s).tilesKept
  have hkid : s.kernel? k.kid = some k := by rw [State.kernel?_kid hk, hk]
  have hm := markAbort_kernel? st detail ((hl.kernel? k.kid).trans hkid)
  obtain ⟨k', hk', htodo, habort⟩ := stopTile_kernel? (markAbort_run k.kid st detail (by rw [hl.tile, hr])) hgo hm
  refine ⟨k', ?_, htodo, habort⟩
  unfold abortOnTile
  simp only [State.runKernel_of_run hr, hk]
  exact hk'

end

end Sys2Proof.Machine
end

section
/-! The issue of a set that meets `Issuable` (R131, R132, R151, R158): fetch, checks and choice all pass, and the instruction runs in the
threads whose guard holds. -/

namespace Sys2Proof.Machine

/-! ### The set -/

theorem mem_bitsSet (x : BitVec n) (l : Nat) : l ∈ bitsSet x ↔ x.getLsbD l = true := by
  simp only [bitsSet, List.mem_filter, List.mem_range, and_iff_right_iff_imp]
  exact BitVec.lt_of_getLsbD

theorem nodup_bitsSet (x : BitVec n) : (bitsSet x).Nodup := List.nodup_range.filter _

theorem bitsSet_ne_nil {x : BitVec n} (h : x ≠ 0) : bitsSet x ≠ [] := by
  intro he
  refine h (BitVec.eq_of_getLsbD_eq fun l _ => ?_)
  have hl := mem_bitsSet x l
  rw [he] at hl
  simpa using hl

/-- The threads of a group at the lanes of a mask, each with its lane. -/
def Group.atLanes (g : Group) (lanes : W64) : List (Nat × Thread) :=
  (bitsSet lanes).filterMap (fun l => (g.threads[l]?).map (fun th => (l, th)))

theorem Group.mem_atLanes (g : Group) (lanes : W64) (e : Nat × Thread) :
    e ∈ g.atLanes lanes ↔ lanes.getLsbD e.1 = true ∧ g.threads[e.1]? = some e.2 := by
  obtain ⟨l, th⟩ := e
  simp only [Group.atLanes, List.mem_filterMap, mem_bitsSet, Option.map_eq_some_iff, Prod.mk.injEq]
  constructor
  · rintro ⟨_, hl, _, hth, rfl, rfl⟩
    exact ⟨hl, hth⟩
  · rintro ⟨hl, hth⟩
    exact ⟨l, hl, th, hth, rfl, rfl⟩

/-- The lanes of a set in whose threads an instruction runs, by what its guard gives. -/
def Group.lanesWhere (g : Group) (lanes : W64) (p : Thread → Bool) : List Nat :=
  ((g.atLanes lanes).filter (fun e => p e.2)).map (·.1)

theorem Group.mem_lanesWhere (g : Group) (lanes : W64) (p : Thread → Bool) (l : Nat) :
    l ∈ g.lanesWhere lanes p ↔ lanes.getLsbD l = true ∧ ∃ th, g.threads[l]? = some th ∧ p th = true := by
  simp only [Group.lanesWhere, List.mem_map, List.mem_filter, Group.mem_atLanes]
  constructor
  · rintro ⟨e, ⟨⟨hl, hth⟩, hp⟩, rfl⟩
    exact ⟨hl, e.2, hth, hp⟩
  · rintro ⟨hl, th, hth, hp⟩
    exact ⟨(l, th), ⟨⟨hl, hth⟩, hp⟩, rfl⟩

/-- The elements of a list come back where what each maps to leads back to it. -/
theorem map_filterMap_of_inv_mem {f : α → Option β} {g : β → α} {l : List α} (h : ∀ a ∈ l, (f a).map g = some a) :
    (l.filterMap f).map g = l := by
  induction l with
  | nil => rfl
  | cons a l ih =>
    obtain ⟨b, hb, hg⟩ := Option.map_eq_some_iff.mp (h a List.mem_cons_self)
    rw [List.filterMap_cons_some hb, List.map_cons, hg, ih (fun x hx => h x (List.mem_cons_of_mem _ hx))]

/-- Every lane of a mask whose threads all exist, in order. -/
theorem Group.atLanes_lanes {g : Group} {lanes : W64} (h : ∀ l, lanes.getLsbD l = true → ∃ th, g.threads[l]? = some th) :
    (g.atLanes lanes).map (·.1) = bitsSet lanes := by
  have hl : ∀ l ∈ bitsSet lanes, ((g.threads[l]?).map (fun th => (l, th))).map (·.1) = some l := by
    intro l hl
    obtain ⟨th, hth⟩ := h l ((mem_bitsSet lanes l).mp hl)
    simp [hth]
  exact map_filterMap_of_inv_mem hl

theorem Group.nodup_lanesWhere {g : Group} {lanes : W64} (p : Thread → Bool)
    (h : ∀ l, lanes.getLsbD l = true → ∃ th, g.threads[l]? = some th) : (g.lanesWhere lanes p).Nodup := by
  have hs : (g.lanesWhere lanes p).Sublist ((g.atLanes lanes).map (·.1)) := (List.filter_sublist).map _
  rw [Group.atLanes_lanes h] at hs
  exact hs.nodup (nodup_bitsSet lanes)

theorem mapM_eq_filterMap {f : α → Option β} {l : List α} (h : ∀ a ∈ l, ∃ b, f a = some b) :
    l.mapM f = some (l.filterMap f) := by
  induction l with
  | nil => rfl
  | cons a l ih =>
    obtain ⟨b, hb⟩ := h a List.mem_cons_self
    rw [List.mapM_cons, List.filterMap_cons_some hb, ih (fun x hx => h x (List.mem_cons_of_mem _ hx)), hb]
    rfl

/-- The issue that `Issuable` describes, before its guard is read. -/
def atIssue (i : Issue) (k : Kernel) (pc : Nat) (w : W64) : IssueAt := ⟨i.tile.val, i.group, k, bitsSet i.lanes, [], [], pc, w⟩

section
variable {s : State} {i : Issue} {opc : Nat} {r : Run} {k : Kernel} {g : Group} {pc : Nat} {w : W64}

theorem IssueSet.exists_thread (h : IssueSet s i opc r k g pc w) (l : Nat) (hl : i.lanes.getLsbD l = true) :
    ∃ th, g.threads[l]? = some th := by
  obtain ⟨th, hth, -⟩ := h.threads l hl
  exact ⟨th, hth⟩

theorem IssueSet.group? (h : IssueSet s i opc r k g pc w) : s.group? i.tile.val i.group = some g :=
  (State.group?_of_run h.run _).trans h.group

theorem IssueSet.thread? (h : IssueSet s i opc r k g pc w) (l : Nat) : s.thread? i.tile.val i.group l = g.threads[l]? :=
  State.thread?_of_group h.group? l

theorem IssueSet.runKernel (h : IssueSet s i opc r k g pc w) : s.runKernel i.tile.val = some k :=
  (State.runKernel_of_run h.run).trans h.kernel

/-- What each thread of the set meets. -/
theorem IssueSet.atLanes (h : IssueSet s i opc r k g pc w) {e : Nat × Thread} (he : e ∈ g.atLanes i.lanes) :
    e.2.st = .runnable ∧ e.2.pc = pc ∧ regsBusy w e.2 = false ∧ e.2.pmarked (fld w 2 0) = false := by
  obtain ⟨hl, hth⟩ := (g.mem_atLanes i.lanes e).mp he
  obtain ⟨th, hth', hst⟩ := h.threads e.1 hl
  obtain rfl : th = e.2 := Option.some.inj (hth'.symm.trans hth)
  exact hst

theorem IssueSet.atLanes_ne_nil (h : IssueSet s i opc r k g pc w) : g.atLanes i.lanes ≠ [] := by
  intro he
  have hl := Group.atLanes_lanes h.exists_thread
  rw [he] at hl
  exact bitsSet_ne_nil h.lanes hl.symm

theorem IssueSet.issueThreads (h : IssueSet s i opc r k g pc w) : issueThreads g i.lanes = some (g.atLanes i.lanes) := by
  have hm : (bitsSet i.lanes).mapM (fun l => (g.threads[l]?).map (fun th => (l, th))) = some (g.atLanes i.lanes) := by
    refine mapM_eq_filterMap fun l hl => ?_
    obtain ⟨th, hth⟩ := h.exists_thread l ((mem_bitsSet i.lanes l).mp hl)
    exact ⟨(l, th), by rw [hth]; rfl⟩
  have hpc : ∀ e ∈ g.atLanes i.lanes, e.2.st = .runnable ∧ e.2.pc = pc := by
    intro e he
    obtain ⟨hst, hpc, -, -⟩ := h.atLanes he
    exact ⟨hst, hpc⟩
  unfold Machine.issueThreads
  simp only [hm]
  cases hx : g.atLanes i.lanes with
  | nil => exact absurd hx h.atLanes_ne_nil
  | cons x xs =>
    rw [hx] at hpc
    have hall : (x :: xs).all (fun e => e.2.st == .runnable && e.2.pc == x.2.pc) = true := by
      rw [List.all_eq_true]
      intro e he
      rw [(hpc e he).1, (hpc e he).2, (hpc x List.mem_cons_self).2]
      simp
    exact if_pos hall

theorem IssueSet.fetchWord (h : IssueSet s i opc r k g pc w) : fetchWord i.tile.val k pc i.hit s = (.word w, s) := by
  unfold Machine.fetchWord
  simp only [h.run, h.hit, if_true, h.cached]

/-- The fetch answers the instruction's word. -/
theorem IssueSet.onFetch (h : IssueSet s i opc r k g pc w) (act : IssueAt → List (Nat × Thread) → State → State) :
    onFetch i opc act s = act (atIssue i k pc w) (g.atLanes i.lanes) s := by
  unfold Machine.onFetch
  simp only [h.run, h.runKernel, h.group?, h.issueThreads]
  cases hx : g.atLanes i.lanes with
  | nil => exact absurd hx h.atLanes_ne_nil
  | cons x xs =>
    obtain ⟨-, hpc, -, -⟩ := h.atLanes (e := x) (by rw [hx]; exact List.mem_cons_self)
    have hlanes : (x :: xs).map (·.1) = bitsSet i.lanes := by rw [← hx, Group.atLanes_lanes h.exists_thread]
    simp [h.going, hpc, Nat.not_le.mpr h.inside, h.fetchWord, h.opcode, hlanes, atIssue]

/-! ### The choice, the checks and the guard -/

theorem Issuable.setWhole (h : Issuable s i opc r k g pc w) (ready : Nat → Thread → Bool) :
    setWhole (atIssue i k pc w) ready s = true := by
  unfold Machine.setWhole
  simp only [atIssue, h.group?, List.all_eq_true, Group.lanes, List.mem_mapIdx]
  rintro _ ⟨l, hl, rfl⟩
  have hth : g.threads[l]? = some g.threads[l] := List.getElem?_eq_getElem hl
  have hin := h.whole l _ hth
  rw [← mem_bitsSet] at hin
  simp only [Bool.or_eq_true, Bool.not_eq_true', List.contains_iff_mem, Bool.and_eq_false_iff, beq_eq_false_iff_ne,
    Bool.not_eq_false']
  by_cases hst : g.threads[l].st = .runnable
  · by_cases hp : g.threads[l].pc = pc
    · cases hb : regsBusy w g.threads[l] with
      | true => simp
      | false => exact .inr (hin hst hp hb)
    · simp [hp]
  · simp [hst]

theorem Issuable.chooses (h : Issuable s i opc r k g pc w) : s.chooses i pc = true := by
  simp only [State.chooses, h.run, h.chosen]

/-- The state in which an instruction runs: its issue counted by the tile's scheduler and on the die (R132, R396). -/
def issued (i : Issue) (k : Kernel) (opc : Nat) (s : State) : State :=
  pmcAdd (1 + dieOfTile i.tile.val) 3 1 (noteIssue i.tile.val k.width i.group (bitsSet i.lanes) opc i.stalled i.co s)

/-- The issue with its threads parted by their guard. -/
def guardedIssue (i : Issue) (k : Kernel) (g : Group) (pc : Nat) (w : W64) : IssueAt :=
  { atIssue i k pc w with
    on  := g.lanesWhere i.lanes (guardOf w)
    off := g.lanesWhere i.lanes (fun th => !guardOf w th) }

theorem IssueSet.runIssued (h : IssueSet s i opc r k g pc w) (body : IssueAt → State → State) (u : State) :
    runIssued body i.tile.val i.group k (g.atLanes i.lanes) pc w u =
      let a := guardedIssue i k g pc w
      let u := pmcAdd (1 + dieOfTile i.tile.val) 3 1 u
      advanceLanes i.tile.val i.group pc a.off (if a.on.isEmpty then u else body a u) := by
  have hp : (g.atLanes i.lanes).any (fun e => e.2.pmarked (fld w 2 0)) = false := by
    rw [List.any_eq_false]
    intro e he
    obtain ⟨-, -, -, hmark⟩ := h.atLanes he
    simp [hmark]
  unfold Machine.runIssued
  simp only [h.checked, hp, Group.atLanes_lanes h.exists_thread]
  rfl

/-- An issue set whose threads are all ready runs. -/
theorem Issuable.onIssue (h : Issuable s i opc r k g pc w) {ready : State → IssueAt → Nat → Thread → Bool}
    (hready : ∀ e ∈ g.atLanes i.lanes, ready s (atIssue i k pc w) e.1 e.2 = true) (body : IssueAt → State → State) :
    onIssue i opc ready body s =
      let a := guardedIssue i k g pc w
      let u := issued i k opc s
      advanceLanes i.tile.val i.group pc a.off (if a.on.isEmpty then u else body a u) := by
  have hany : (g.atLanes i.lanes).any (fun e => regsBusy w e.2 || !ready s (atIssue i k pc w) e.1 e.2) = false := by
    rw [List.any_eq_false]
    intro e he
    obtain ⟨-, -, hbusy, -⟩ := h.atLanes he
    simp [hbusy, hready e he]
  unfold Machine.onIssue
  rw [h.onFetch]
  have hwhole := h.setWhole (ready s (atIssue i k pc w))
  simp only [atIssue, h.chooses, h.opcode] at hany hwhole ⊢
  rw [hany, hwhole]
  exact h.runIssued body _

theorem IssueSet.issueLive (h : IssueSet s i opc r k g pc w) (f : State → State) : issueLive i f s = .next (f s) := by
  unfold Machine.issueLive
  rw [whenLive_of_live _ h.live, h.flaws]
  rfl

end

end Sys2Proof.Machine
end

section
/-! Instructions that only write registers (R151, R158, R160-R167): each issue leaves what `RegIssue` says, or from the last slot an abort. -/

namespace Sys2Proof.Machine

/-! ### The state in which the instruction runs -/

section
variable {s : State} {i : Issue} {opc : Nat} {r : Run} {k : Kernel} {g : Group} {pc : Nat} {w : W64}

theorem issued_frame (i : Issue) (k : Kernel) (opc : Nat) (s : State) :
    issued i k opc s = { s with dies := (pmcAdd (1 + dieOfTile i.tile.val) 3 1 s).dies, tiles := (issued i k opc s).tiles } := by
  have hx : 1 + dieOfTile i.tile.val ≠ 0 := by omega
  simp only [issued, pmcAdd, if_neg hx]
  rfl

theorem issued_kernel? (i : Issue) (k : Kernel) (opc : Nat) (s : State) (kid : Nat) :
    (issued i k opc s).kernel? kid = s.kernel? kid := by
  rw [issued_frame]
  rfl

theorem issued_tile (i : Issue) (k : Kernel) (opc : Nat) (s : State) (u : Nat) :
    (issued i k opc s).tile u = (noteIssue i.tile.val k.width i.group (bitsSet i.lanes) opc i.stalled i.co s).tile u :=
  (pmcAdd_tilesKept _ _ _ _).tile u

theorem issued_tile_other (i : Issue) (k : Kernel) (opc : Nat) (s : State) {u : Nat} (hu : u ≠ i.tile.val) :
    (issued i k opc s).tile u = s.tile u :=
  (issued_tile i k opc s u).trans (State.modRun_tile_other s _ hu)

theorem IssueSet.issued_tile (h : IssueSet s i opc r k g pc w) :
    (issued i k opc s).tile i.tile.val = { s.tile i.tile.val with run := some (r.counted k i opc) } :=
  (Machine.issued_tile i k opc s _).trans (State.modRun_tile_self _ h.run)

theorem IssueSet.issued_run (h : IssueSet s i opc r k g pc w) :
    ((issued i k opc s).tile i.tile.val).run = some (r.counted k i opc) := by
  rw [h.issued_tile]

theorem IssueSet.issued_group? (h : IssueSet s i opc r k g pc w) (n : Nat) :
    (issued i k opc s).group? i.tile.val n = s.group? i.tile.val n :=
  (State.group?_of_run h.issued_run n).trans (State.group?_of_run h.run n).symm

theorem IssueSet.issued_thread? (h : IssueSet s i opc r k g pc w) (l : Nat) :
    (issued i k opc s).thread? i.tile.val i.group l = s.thread? i.tile.val i.group l := by
  simp only [State.thread?, h.issued_group?]

/-! ### Lanes by their guard -/

theorem IssueSet.mem_on (h : IssueSet s i opc r k g pc w) {l : Nat} {th : Thread} (hth : s.thread? i.tile.val i.group l = some th) :
    l ∈ (guardedIssue i k g pc w).on ↔ i.lanes.getLsbD l = true ∧ guardOf w th = true := by
  rw [h.thread?] at hth
  simp [guardedIssue, Group.mem_lanesWhere, hth]

theorem IssueSet.mem_off (h : IssueSet s i opc r k g pc w) {l : Nat} {th : Thread} (hth : s.thread? i.tile.val i.group l = some th) :
    l ∈ (guardedIssue i k g pc w).off ↔ i.lanes.getLsbD l = true ∧ guardOf w th = false := by
  rw [h.thread?] at hth
  simp [guardedIssue, Group.mem_lanesWhere, hth]

theorem not_mem_on_of_lane {l : Nat} (hl : i.lanes.getLsbD l = false) : l ∉ (guardedIssue i k g pc w).on := by
  simp [guardedIssue, Group.mem_lanesWhere, hl]

theorem not_mem_off_of_lane {l : Nat} (hl : i.lanes.getLsbD l = false) : l ∉ (guardedIssue i k g pc w).off := by
  simp [guardedIssue, Group.mem_lanesWhere, hl]

theorem IssueSet.nodup_on (h : IssueSet s i opc r k g pc w) : (guardedIssue i k g pc w).on.Nodup :=
  Group.nodup_lanesWhere _ h.exists_thread

theorem IssueSet.nodup_off (h : IssueSet s i opc r k g pc w) : (guardedIssue i k g pc w).off.Nodup :=
  Group.nodup_lanesWhere (fun th => !guardOf w th) h.exists_thread

/-- The set has a lane; its guard holds or fails there. -/
theorem IssueSet.off_ne_nil (h : IssueSet s i opc r k g pc w) (hon : (guardedIssue i k g pc w).on = []) :
    (guardedIssue i k g pc w).off ≠ [] := by
  obtain ⟨l, hl⟩ := List.exists_mem_of_ne_nil _ (bitsSet_ne_nil h.lanes)
  rw [mem_bitsSet] at hl
  obtain ⟨th, hth⟩ := h.exists_thread l hl
  rw [← h.thread?] at hth
  have hguard : guardOf w th = false := by
    rw [← Bool.not_eq_true]
    intro hg
    have := (h.mem_on hth).mpr ⟨hl, hg⟩
    rw [hon] at this
    cases this
  exact List.ne_nil_of_mem ((h.mem_off hth).mpr ⟨hl, hguard⟩)

end

/-! ### Going on to the next instruction -/

/-- A thread past the instruction at a PC (R151). -/
def Thread.past (pc : Nat) (th : Thread) : Thread := { th with pc := pc + 8 }

theorem advanceLanes_eq (t g pc : Nat) (l : List Nat) (s : State) :
    advanceLanes t g pc l s =
      let u := mapLanes t g l (fun _ => Thread.past pc) s
      if pcEnd ≤ pc + 8 ∧ !l.isEmpty ∧ u.issues t then illegal t pc outOfRange u else u := rfl

theorem advanceLanes_nil (t g pc : Nat) (s : State) : advanceLanes t g pc [] s = s := by
  simp [advanceLanes_eq, mapLanes]

/-- Before the last slot, threads go on. -/
theorem advanceLanes_of_room {pc : Nat} (hpc : pc + 8 < pcEnd) (t g : Nat) (l : List Nat) (s : State) :
    advanceLanes t g pc l s = mapLanes t g l (fun _ => Thread.past pc) s := by
  have : ¬(pcEnd ≤ pc + 8) := by omega
  simp [advanceLanes_eq, this]

section
variable {t g pc : Nat} {s : State} {r : Run} {l : List Nat} (hr : (s.tile t).run = some r)
include hr

/-- A stopped tile stays as it stopped. -/
theorem advanceLanes_of_stopped (hstop : r.stopped = true) :
    advanceLanes t g pc l s = mapLanes t g l (fun _ => Thread.past pc) s := by
  obtain ⟨gs, hgs⟩ := (mapLanes_lanesOnly t g l (fun _ => Thread.past pc) s).run r hr
  have hi := State.issues_of_run (r := { r with groups := gs }) (congrArg Tile.run hgs)
  simp [advanceLanes_eq, hi, hstop]

/-- From the last slot, threads abort the kernel. -/
theorem advanceLanes_of_end {k : Kernel} (hk : s.kernel? r.kid = some k) (hgo : r.stopped = false) (hpc : pcEnd ≤ pc + 8)
    (hl : l ≠ []) :
    AbortedOn (advanceLanes t g pc l s) t k .illegal outOfRange ∧
      ∃ r', ((advanceLanes t g pc l s).tile t).run = some r' ∧ r'.stopped = true := by
  obtain ⟨gs, hgs⟩ := (mapLanes_lanesOnly t g l (fun _ => Thread.past pc) s).run r hr
  have hrun := congrArg Tile.run hgs
  have hk' := ((mapLanes_lanesOnly t g l (fun _ => Thread.past pc) s).kernel? r.kid).trans hk
  have hi := State.issues_of_run hrun
  have ha : advanceLanes t g pc l s =
      abortOnTile t .illegal outOfRange pc 0 (mapLanes t g l (fun _ => Thread.past pc) s) := by
    simp [advanceLanes_eq, illegal, hi, hgo, hpc, hl]
  rw [ha]
  exact ⟨abortOnTile_abortedOn hrun hk' hgo _ _ _ _, _, abortOnTile_run hrun hk' hgo _ _ _ _, rfl⟩

/-- An abort stands while other threads of the set go on. -/
theorem AbortedOn.advanceLanes {k : Kernel} {st : Status} {d : Nat} (h : AbortedOn s t k st d) (hstop : r.stopped = true) :
    AbortedOn (advanceLanes t g pc l s) t k st d := by
  obtain ⟨gs, hgs⟩ := (mapLanes_lanesOnly t g l (fun _ => Thread.past pc) s).run r hr
  have hi := State.issues_of_run (congrArg Tile.run hgs)
  rw [advanceLanes_of_stopped hr hstop]
  refine ⟨?_, by simp [hi, hstop]⟩
  rw [(mapLanes_lanesOnly t g l _ s).kernel?]
  exact h.1

end

/-! ### The instruction -/

/-- What an issue that only writes registers leaves: the threads whose guard holds changed, then each thread of the set past the
instruction. -/
def regIssued (i : Issue) (k : Kernel) (g : Group) (pc : Nat) (w : W64) (f : Nat → Thread → Thread) (u : State) : State :=
  let a := guardedIssue i k g pc w
  advanceLanes i.tile.val i.group pc a.off
    (advanceLanes i.tile.val i.group pc a.on (mapLanes i.tile.val i.group a.on f u))

section
variable {s : State} {i : Issue} {opc : Nat} {r : Run} {k : Kernel} {g : Group} {pc : Nat} {w : W64}

theorem Issuable.issueReg (h : Issuable s i opc r k g pc w) (f : State → IssueAt → Nat → Thread → Thread) :
    issueReg i opc f s =
      .next (regIssued i k g pc w (f (issued i k opc s) (guardedIssue i k g pc w)) (issued i k opc s)) := by
  unfold Machine.issueReg
  rw [h.issueLive, h.onIssue (fun _ _ => rfl)]
  cases hon : (guardedIssue i k g pc w).on with
  | nil => simp [regIssued, hon, advanceLanes_nil, mapLanes]
  | cons x xs =>
    simp only [regIssued, hon, List.isEmpty_cons]
    rfl

/-- Threads past the instruction keep their group and tile. -/
theorem regIssued_lanesOnly (hpc : pc + 8 < pcEnd) (f : Nat → Thread → Thread) (u : State) :
    LanesOnly i.tile.val i.group u (regIssued i k g pc w f u) := by
  unfold regIssued
  simp only [advanceLanes_of_room hpc]
  exact ((mapLanes_lanesOnly _ _ _ _ _).trans (mapLanes_lanesOnly _ _ _ _ _)).trans (mapLanes_lanesOnly _ _ _ _ _)

/-- A thread after the issue, by whether its guard holds or fails. -/
theorem IssueSet.regIssued_thread? (h : IssueSet s i opc r k g pc w) (hpc : pc + 8 < pcEnd) (f : Nat → Thread → Thread) (l : Nat) :
    (regIssued i k g pc w f (issued i k opc s)).thread? i.tile.val i.group l =
      let x := s.thread? i.tile.val i.group l
      let y := if l ∈ (guardedIssue i k g pc w).on then x.map (fun th => (f l th).past pc) else x
      if l ∈ (guardedIssue i k g pc w).off then y.map (Thread.past pc) else y := by
  have hchanged := mapLanes_lanesOnly i.tile.val i.group (guardedIssue i k g pc w).on f (issued i k opc s)
  obtain ⟨gs, hgs⟩ := hchanged.run _ h.issued_run
  have hpast := hchanged.trans (mapLanes_lanesOnly _ _ (guardedIssue i k g pc w).on (fun _ => Thread.past pc) _)
  obtain ⟨gs', hgs'⟩ := hpast.run _ h.issued_run
  unfold regIssued
  simp only [advanceLanes_of_room hpc]
  rw [mapLanes_thread? (congrArg Tile.run hgs') h.nodup_off, mapLanes_thread? (congrArg Tile.run hgs) h.nodup_on,
    mapLanes_thread? h.issued_run h.nodup_on, h.issued_thread?]
  by_cases hon : l ∈ (guardedIssue i k g pc w).on
  · simp only [if_pos hon, Option.map_map, Function.comp_def]
  · simp only [if_neg hon]

/-- With room for a next instruction, an issue of registers leaves what `RegIssue` says. -/
theorem IssueSet.regIssue (h : IssueSet s i opc r k g pc w) (hpc : pc + 8 < pcEnd) (f : Nat → Thread → Thread) :
    RegIssue s (regIssued i k g pc w f (issued i k opc s)) i r pc w (fun l th th' => th' = { f l th with pc := pc + 8 }) := by
  have hl : LanesOnly i.tile.val i.group (issued i k opc s) (regIssued i k g pc w f (issued i k opc s)) :=
    regIssued_lanesOnly hpc f _
  have hthread := h.regIssued_thread? hpc f
  obtain ⟨gs, hgs⟩ := hl.run _ h.issued_run
  constructor
  case others =>
    rw [hl.frame, issued_frame]
  case tiles => exact fun u hu => (hl.tiles u hu).trans (issued_tile_other i k opc s hu)
  case run => exact ⟨gs, k, h.kernel, by rw [hgs, h.issued_tile, h.opcode]⟩
  case groups => exact fun n hn => (hl.groups _ h.issued_run n hn).trans (h.issued_group? n)
  case off =>
    intro l hlane
    simp only [hthread, if_neg (not_mem_off_of_lane hlane), if_neg (not_mem_on_of_lane hlane)]
  case skipped =>
    intro l th hlane hth hguard
    have hoff : l ∈ (guardedIssue i k g pc w).off := (h.mem_off hth).mpr ⟨hlane, hguard⟩
    have hon : l ∉ (guardedIssue i k g pc w).on := by simp [h.mem_on hth, hguard]
    simp only [hthread, if_pos hoff, if_neg hon, hth, Option.map_some, Thread.past]
  case ran =>
    intro l th hlane hth hguard
    have hoff : l ∉ (guardedIssue i k g pc w).off := by simp [h.mem_off hth, hguard]
    have hon : l ∈ (guardedIssue i k g pc w).on := (h.mem_on hth).mpr ⟨hlane, hguard⟩
    exact ⟨_, rfl, by simp only [hthread, if_neg hoff, if_pos hon, hth, Option.map_some, Thread.past]⟩

/-- From the last slot it aborts the kernel (R151). -/
theorem IssueSet.regIssued_abortedOn (h : IssueSet s i opc r k g pc w) (hpc : pcEnd ≤ pc + 8) (f : Nat → Thread → Thread) :
    AbortedOn (regIssued i k g pc w f (issued i k opc s)) i.tile.val k .illegal outOfRange := by
  have hk : (issued i k opc s).kernel? r.kid = some k := (issued_kernel? i k opc s _).trans h.kernel
  unfold regIssued
  dsimp only
  cases hon : (guardedIssue i k g pc w).on with
  | nil =>
    simp only [advanceLanes_nil]
    exact (advanceLanes_of_end h.issued_run hk h.going hpc (h.off_ne_nil hon)).1
  | cons x xs =>
    have hchanged := mapLanes_lanesOnly i.tile.val i.group (x :: xs) f (issued i k opc s)
    obtain ⟨gs, hgs⟩ := hchanged.run _ h.issued_run
    obtain ⟨habort, r', hr', hstop⟩ := advanceLanes_of_end (g := i.group) (congrArg Tile.run hgs) ((hchanged.kernel? _).trans hk)
      h.going hpc (List.cons_ne_nil x xs)
    exact habort.advanceLanes hr' hstop

end

/-! ### The claims' terms -/

/-- What an instruction that only writes registers says of a thread may be weakened. -/
theorem WritesRegs.mono {c : Issue → Instr} {opc : Nat} {R R' : State → Issue → Kernel → W64 → Nat → Thread → Thread → Prop}
    (h : WritesRegs c opc R) (hR : ∀ s i k w l th th', R s i k w l th th' → R' s i k w l th th') : WritesRegs c opc R' := by
  intro s i r k g pc w hi
  obtain ⟨hroom, hend⟩ := h s i r k g pc w hi
  refine ⟨fun hpc => ?_, hend⟩
  obtain ⟨t, ht, hreg⟩ := hroom hpc
  refine ⟨t, ht, { hreg with ran := fun l th hlane hth hguard => ?_ }⟩
  obtain ⟨th', ⟨th1, hR1, rfl⟩, hth'⟩ := hreg.ran l th hlane hth hguard
  exact ⟨_, ⟨th1, hR s i k w l th th1 hR1, rfl⟩, hth'⟩

/-- An instruction that changes registers as a function says. -/
theorem writesRegs_of_issueReg {c : Issue → Instr} {opc : Nat} {f : State → IssueAt → Nat → Thread → Thread}
    (hc : ∀ i s, exec (c i) s = issueReg i opc f s) :
    WritesRegs c opc (fun s i k w l th th' => ∃ g pc, th' = f (issued i k opc s) (guardedIssue i k g pc w) l th) := by
  intro s i r k g pc w h
  rw [hc, h.issueReg]
  refine ⟨fun hpc => ⟨_, rfl, ?_⟩, fun hpc => ⟨_, rfl, h.regIssued_abortedOn hpc _⟩⟩
  have hreg := h.regIssue hpc (f (issued i k opc s) (guardedIssue i k g pc w))
  refine { hreg with ran := fun l th hlane hth hguard => ?_ }
  obtain ⟨th', rfl, hth'⟩ := hreg.ran l th hlane hth hguard
  exact ⟨_, ⟨_, ⟨g, pc, rfl⟩, rfl⟩, hth'⟩

/-- An instruction whose result at DST its word and its thread determine. -/
theorem computes_of_issueVal {c : Issue → Instr} {opc : Nat} {f : W64 → Thread → Nat}
    (hc : ∀ i s, exec (c i) s = issueVal i opc f s) : Computes c opc f :=
  (writesRegs_of_issueReg hc).mono fun _ _ _ _ _ _ _ ⟨_, _, h⟩ => h

end Sys2Proof.Machine
end

section
/-! Division and remainder (R163). -/

namespace Sys2Proof.Machine

theorem vDiv_zero {w : W64} {th : Thread} (hb : th.reg (wSb w) = 0) : vDiv w th = 0xFFFFFFFF := by
  simp [vDiv, hb]

theorem vRem_zero {w : W64} {th : Thread} (hb : th.reg (wSb w) = 0) : vRem w th = (th.reg (wSa w)).toNat := by
  simp [vRem, hb]

section
variable {w : W64} {th : Thread} (hu : wU w = false) (ha : th.reg (wSa w) = 0x80000000) (hb : th.reg (wSb w) = 0xFFFFFFFF)
include hu ha hb

/-- −2³¹ by −1: the quotient 2³¹ wraps to −2³¹. -/
theorem vDiv_overflow : vDiv w th = 0x80000000 := by
  simp only [vDiv, hu, ha, hb]
  decide

theorem vRem_overflow : vRem w th = 0 := by
  simp only [vRem, hu, ha, hb]
  decide

end

theorem computes_idiv : Computes .idiv 0x10 vDiv := computes_of_issueVal fun _ _ => rfl

theorem computes_irem : Computes .irem 0x11 vRem := computes_of_issueVal fun _ _ => rfl

/-- Settles O4: every issue of IDIV and IREM leaves the model's quotient and remainder, which take R163's values at the corners. -/
theorem divisionCorners : Obligations.DivisionCorners := by
  unfold Obligations.DivisionCorners
  constructor
  · refine computes_idiv.mono fun _ _ _ w _ th th' (hdiv : th' = th.putDst w (vDiv w th) _) => ⟨fun hb => ?_, fun hu ha hb => ?_⟩
    · rw [hdiv, vDiv_zero hb]
    · rw [hdiv, vDiv_overflow hu ha hb]
  · refine computes_irem.mono fun _ _ _ w _ th th' (hrem : th' = th.putDst w (vRem w th) _) => ⟨fun hb => ?_, fun hu ha hb => ?_⟩
    · rw [hrem, vRem_zero hb]
    · rw [hrem, vRem_overflow hu ha hb]

end Sys2Proof.Machine
end

section
/-! Error records (R390-R392): the slot into which a record is counted, and the log after a record is counted or written. -/

namespace Sys2Proof.Machine

/-! ### Listed entries -/

theorem Sparse.mem_of_find? {m : Sparse α} {k : Nat} {v : α} (h : Sparse.find? m k = some v) : (k, v) ∈ m := by
  induction m with
  | nil => cases h
  | cons e m ih =>
    obtain ⟨j, a⟩ := e
    by_cases hj : j = k
    · simp only [Sparse.find?, if_pos hj, Option.some.injEq] at h
      subst hj h
      exact List.mem_cons_self
    · simp only [Sparse.find?, if_neg hj] at h
      exact List.mem_cons_of_mem _ (ih h)

/-- A key of a rising list is listed once. -/
theorem Sparse.find?_of_mem {lo : Option Nat} {m : Sparse α} {k : Nat} {v : α} (hs : Sparse.sortedFrom lo m = true)
    (h : (k, v) ∈ m) : Sparse.find? m k = some v := by
  induction m generalizing lo with
  | nil => cases h
  | cons e m ih =>
    obtain ⟨j, a⟩ := e
    obtain ⟨-, htail⟩ := (Sparse.sortedFrom_cons lo j a m).mp hs
    rcases List.mem_cons.mp h with heq | hm
    · obtain ⟨rfl, rfl⟩ := Prod.mk.inj heq
      simp [Sparse.find?]
    · have hk := ih htail hm
      by_cases hj : j = k
      · rw [Sparse.find?_of_le htail (Nat.le_of_eq hj.symm)] at hk
        cases hk
      · simpa only [Sparse.find?, if_neg hj] using hk

theorem Sparse.read_of_mem [DecidableEq α] {d : α} {m : Sparse α} {k : Nat} {v : α} (hwf : Sparse.wf d m = true)
    (h : (k, v) ∈ m) : Sparse.read d m k = v := by
  obtain ⟨hs, -⟩ := (Sparse.wf_iff d m).mp hwf
  simp [Sparse.read, Sparse.find?_of_mem hs h]

/-- A key that does not read as an unlisted one is listed. -/
theorem Sparse.mem_of_read_ne {d : α} {m : Sparse α} {k : Nat} (h : Sparse.read d m k ≠ d) : (k, Sparse.read d m k) ∈ m := by
  refine Sparse.mem_of_find? ?_
  cases hf : Sparse.find? m k with
  | none => exact absurd (by simp [Sparse.read, hf]) h
  | some v => simp [Sparse.read, hf]

/-! ### The log under what a record sends -/

@[simp] theorem trace_ras (x cls data : Nat) (s : State) : (trace x cls data s).ras = s.ras := by
  rw [trace_frame]

@[simp] theorem negFreezeNow_ras (s : State) : (negFreezeNow s).ras = s.ras := by
  rw [negFreezeNow_frame]

@[simp] theorem sendMsix_ras (f : FuncId) (v : Nat) (s : State) : (sendMsix f v s).ras = s.ras := by
  rw [sendMsix_frame]

@[simp] theorem imsicSet_ras (k ident : Nat) (s : State) : (imsicSet k ident s).ras = s.ras := by
  rw [imsicSet_frame]

/-- A choice of an operation that keeps the log keeps it. -/
theorem ras_ite {b : Prop} [Decidable b] {t s : State} (h : t.ras = s.ras) : (if b then t else s).ras = s.ras := by
  split
  · exact h
  · rfl

@[simp] theorem rasRoute_ras (cls : Nat) (s : State) : (rasRoute cls s).ras = s.ras := by
  unfold rasRoute
  dsimp only
  split
  · simp [ras_ite]
  · simp [ras_ite]

@[simp] theorem sendErrvec_ras (c : Nat) (s : State) : (sendErrvec c s).ras = s.ras := by
  unfold sendErrvec
  split
  · rfl
  · exact sendMsix_ras _ _ s

/-- The record that a new one leaves in the log (R390). -/
def RasNew.record (r : RasNew) (s : State) : RasRec :=
  { cls := BitVec.ofNat 3 r.cls.code, code := BitVec.ofNat 16 r.code, ctx := r.ctx.map (Fin.ofNat 64),
    unit := BitVec.ofNat 8 r.unit, count := 1, addr := BitVec.ofNat 64 r.addr, info := BitVec.ofNat 64 r.info, time := s.hub.tel }

/-- A new record lies at WRPTR mod 256 and WRPTR advances; what the record sends leaves the log alone. -/
theorem newRas_ras (r : RasNew) (s : State) :
    (newRas r s).ras =
      { s.ras with
        log := Sparse.write {} s.ras.log (s.ras.wrptr.toNat % 256) (r.record s)
        wrptr := s.ras.wrptr + 1
        history := r.record s :: s.ras.history } := by
  unfold newRas
  dsimp only
  split
  · rw [ras_ite (sendErrvec_ras _ _), rasRoute_ras, ras_ite (negFreezeNow_ras _), trace_ras]; rfl
  · rw [rasRoute_ras, ras_ite (negFreezeNow_ras _), trace_ras]; rfl

/-! ### Coalescing -/

/-- Whether a record of the log has the code and unit of a new one and was written less than 1 ms before (R391). -/
def RasNew.Fresh (r : RasNew) (s : State) (e : RasRec) : Prop :=
  e.code.toNat = r.code ∧ e.unit.toNat = r.unit ∧ e.count ≠ 0 ∧ (s.hub.tel - e.time).toNat < 100000

theorem RasNew.coalesces_iff (r : RasNew) : r.coalesces = true ↔ r.cls = .corrected ∨ r.code = 0x25 := by
  simp [RasNew.coalesces]

theorem coalesceSlot_of_not_coalesces {r : RasNew} (h : r.coalesces = false) (s : State) : coalesceSlot r s = none := by
  simp [coalesceSlot, h]

section
variable {r : RasNew} {s : State} {i : Nat}

/-- An unlisted slot holds no record, so a fresh one is listed. -/
theorem RasNew.Fresh.mem (h : r.Fresh s (Sparse.read {} s.ras.log i)) : (i, Sparse.read {} s.ras.log i) ∈ s.ras.log := by
  refine Sparse.mem_of_read_ne fun hd => ?_
  obtain ⟨-, -, hcount, -⟩ := h
  rw [hd] at hcount
  exact hcount rfl

/-- The slot that coalescing answers holds a fresh record. -/
theorem coalesceSlot_fresh (hwf : Sparse.wf {} s.ras.log = true) (h : coalesceSlot r s = some i) :
    r.coalesces = true ∧ r.Fresh s (Sparse.read {} s.ras.log i) := by
  cases hc : r.coalesces with
  | false => rw [coalesceSlot_of_not_coalesces hc] at h; cases h
  | true =>
    simp only [coalesceSlot, hc, if_true, Option.map_eq_some_iff] at h
    obtain ⟨⟨j, e⟩, hfind, rfl⟩ := h
    have hread := Sparse.read_of_mem hwf (List.mem_of_find?_eq_some hfind)
    have hp := List.find?_some hfind
    refine ⟨rfl, ?_⟩
    rw [hread]
    simpa [RasNew.Fresh, and_assoc] using hp

/-- A record that coalesces finds a slot where a fresh record lies. -/
theorem coalesceSlot_ne_none (hc : r.coalesces = true) (h : r.Fresh s (Sparse.read {} s.ras.log i)) :
    coalesceSlot r s ≠ none := by
  intro hn
  simp only [coalesceSlot, hc, if_true, Option.map_eq_none_iff, List.find?_eq_none] at hn
  refine hn _ h.mem ?_
  simpa [RasNew.Fresh, and_assoc] using h

theorem coalesceSlot_eq_none_iff (hwf : Sparse.wf {} s.ras.log = true) :
    coalesceSlot r s = none ↔ ¬(r.coalesces = true ∧ ∃ i, r.Fresh s (Sparse.read {} s.ras.log i)) := by
  constructor
  · rintro hn ⟨hc, i, hi⟩
    exact coalesceSlot_ne_none hc hi hn
  · intro h
    cases hslot : coalesceSlot r s with
    | none => rfl
    | some i =>
      obtain ⟨hc, hi⟩ := coalesceSlot_fresh hwf hslot
      exact absurd ⟨hc, i, hi⟩ h

theorem logRas_of_slot (h : coalesceSlot r s = some i) : logRas r s = countRas i s := by
  simp only [logRas, h]

theorem logRas_of_routed (h : coalesceSlot r s = none) (hroute : strayRoute r.cls.code s = none) :
    logRas r s = newRas r s := by
  simp only [logRas, h, hroute]

end

/-- A 16-bit count rises by one up to 0xFFFF. -/
theorem satAdd_one (c : BitVec 16) : satAdd c 1 = if c = 0xFFFF then 0xFFFF else c + 1 := by
  have hlt := c.isLt
  by_cases hc : c = 0xFFFF
  · subst hc; rfl
  · have hne : c.toNat ≠ 0xFFFF := fun h => hc (BitVec.eq_of_toNat_eq h)
    rw [if_neg hc, satAdd, if_pos (by omega)]
    exact BitVec.eq_of_toNat_eq (by simp)

/-- A record counted into a slot changes that record's COUNT alone. -/
theorem read_countRas_log {s : State} (hwf : Sparse.wf {} s.ras.log = true) (i j : Nat) :
    Sparse.read {} (countRas i s).ras.log j =
      let e := Sparse.read {} s.ras.log j
      if j = i then { e with count := if e.count = 0xFFFF then 0xFFFF else e.count + 1 } else e := by
  by_cases hj : j = i
  · subst hj
    simp only [countRas, Sparse.read_write_self j _ hwf, satAdd_one, if_true]
  · simp only [countRas, Sparse.read_write_other _ _ _ hj, if_neg hj]

/-- Settles O57: a coalescing record is counted into the slot of a fresh one, and every other record is written at WRPTR. -/
theorem recordsCoalesce : Obligations.RecordsCoalesce := by
  unfold Obligations.RecordsCoalesce
  intro s r hwf fresh joins t
  have hnone : coalesceSlot r s = none ↔ ¬joins := by
    rw [coalesceSlot_eq_none_iff hwf, r.coalesces_iff]
    rfl
  refine ⟨fun hjoins => ?_, fun hjoins hroute => ?_⟩
  · obtain ⟨i, hslot⟩ := Option.ne_none_iff_exists'.mp (fun hn => hnone.mp hn hjoins)
    obtain ⟨-, hfresh⟩ := coalesceSlot_fresh hwf hslot
    have ht : t = countRas i s := logRas_of_slot hslot
    rw [ht]
    exact ⟨rfl, i, hfresh, read_countRas_log hwf i, rfl⟩
  · have ht : t = newRas r s := logRas_of_routed (hnone.mpr hjoins) hroute
    rw [ht, newRas_ras]
    dsimp only
    rw [Sparse.read_write_self _ _ hwf]
    exact ⟨rfl, rfl, rfl, rfl, rfl, rfl, rfl, rfl, fun j hj => Sparse.read_write_other _ _ _ hj⟩

end Sys2Proof.Machine
end
